-- ==== Sys2Proof/Word.lean ====
section
/-! DEFINITION. The word types of the block (00_scope.md R6) and the names of its data arrays (10_state.md R42 to R48). -/

namespace Sys2Proof

/-- A command word or a host-readable register: 32 bits (R6). -/
abbrev Word := BitVec 32

/-- An element of a data array: an `int16`, read with `BitVec.toInt` (R6), or a colour in `RB`. -/
abbrev Sample := BitVec 16

/-- A display-native colour: a `uint16` (R6). -/
abbrev Colour := BitVec 16

/-- The seven data arrays (R42 to R48), by the names of the spec. -/
inductive ArrayId where
  /-- Analysis Window (R42). -/
  | aw
  /-- Window Function Table (R43). -/
  | wt
  /-- Windowed Frame (R44). -/
  | wf
  /-- Spectral Coefficients (R45). -/
  | sc
  /-- Magnitude Spectrum (R46). -/
  | ms
  /-- Capture buffer (R47). -/
  | cb
  /-- Scan Row Buffer (R48). -/
  | rb
  deriving DecidableEq, Repr

end Sys2Proof
end

