-- ==== Sys2Proof/Machine/Operands.lean ====
section
/-! DEFINITION. The operand forms of a command word (30_encoding.md R110 to R112): how each is read from the word, and how it is laid
out in the operand field. -/

namespace Sys2Proof.Machine

/-- Bits 31:24 of a word, the opcode `OP` (R110). -/
def opField (w : Word) : BitVec 8 := w.extractLsb' 24 8

/-- Bits 23:0 of a word, the operand field `OPND` (R110). -/
def opndField (w : Word) : BitVec 24 := w.extractLsb' 0 24

/-- Form T: `target = zext_16(word[15:0])`, an absolute word index (R112). -/
def jumpTarget (w : Word) : Nat := (w.extractLsb' 0 16).toNat

/-- Form I: `m = sext_16(word[15:0])` (R112). -/
def immediate (w : Word) : Int := (w.extractLsb' 0 16).toInt

/-- The operand field of form Z: all 0 (R111). -/
def opndZ : BitVec 24 := 0#24

/-- The operand field of form T: bits 23:16 are 0 (R111). -/
def opndT (target : Nat) : BitVec 24 := (BitVec.ofNat 16 target).setWidth 24

/-- The operand field of form I: bits 23:16 are 0, bits 15:0 two's complement (R111). -/
def opndI (m : Int) : BitVec 24 := (BitVec.ofInt 16 m).setWidth 24

end Sys2Proof.Machine
end

