-- ==== Sys2Proof/Syntax.lean ====
section
/-! DEFINITION. The commands: one constructor per row of spec/opcode_table.json (30_encoding.md R113). -/

namespace Sys2Proof

/-- A command. Operands are the values of R112: JMP's target a word index, MAP's immediate a signed magnitude. -/
inductive Instr where
  /-- R270. -/
  | nop
  /-- R275. -/
  | init
  /-- R282. -/
  | waitdata
  /-- R285. -/
  | halt
  /-- R284, form T. -/
  | jmp (target : Nat)
  /-- R145. -/
  | ingest
  /-- R175. -/
  | window
  /-- R179. -/
  | rfft
  /-- R185. -/
  | cmag
  /-- R224, form I. -/
  | map (m : Int)
  /-- R242. -/
  | compose
  /-- R246. -/
  | advance
  deriving DecidableEq, Repr

end Sys2Proof
end

