-- ==== Sys2Proof/WellFormed.lean ====
section
/-! DEFINITION. Which commands have a word: the operand ranges of 30_encoding.md R112 and R117. -/

namespace Sys2Proof

/-- JMP takes a target in [0, 65535], MAP an immediate in [-32768, 32767] (R117); no other command has an operand. -/
def Instr.wf : Instr → Bool
  | .jmp target => decide (target < 65536)
  | .map m => decide (-32768 ≤ m) && decide (m ≤ 32767)
  | .nop | .init | .waitdata | .halt | .ingest | .window | .rfft | .cmag | .compose | .advance => true

end Sys2Proof
end

