-- ==== Sys2Proof/Decode.lean ====
section
/-! DEFINITION. The decoder of 30_encoding.md R114, total on every word, an illegal word rejected by the name of its reason (R115); and
the encoder, written from the format and the opcode column of R110, R111 and R113. -/

namespace Sys2Proof

/-- The operand form of an opcode row (R111). Form Z carries the row's command. -/
inductive OpForm where
  | z (command : Instr)
  | t
  | i
  deriving DecidableEq, Repr

/-- A row of R113. -/
structure OpRow where
  form : OpForm
  matchBits : Word
  mask : Word
  deriving DecidableEq, Repr

/-- The opcode map, row by row as R113 has it. -/
def opcodeTable : List OpRow :=
  [ ⟨.z .nop,      0x00000000, 0xFFFFFFFF⟩,
    ⟨.z .init,     0x01000000, 0xFFFFFFFF⟩,
    ⟨.z .waitdata, 0x02000000, 0xFFFFFFFF⟩,
    ⟨.z .halt,     0x03000000, 0xFFFFFFFF⟩,
    ⟨.t,           0x04000000, 0xFFFF0000⟩,
    ⟨.z .ingest,   0x10000000, 0xFFFFFFFF⟩,
    ⟨.z .window,   0x20000000, 0xFFFFFFFF⟩,
    ⟨.z .rfft,     0x21000000, 0xFFFFFFFF⟩,
    ⟨.z .cmag,     0x22000000, 0xFFFFFFFF⟩,
    ⟨.i,           0x30000000, 0xFFFF0000⟩,
    ⟨.z .compose,  0x40000000, 0xFFFFFFFF⟩,
    ⟨.z .advance,  0x41000000, 0xFFFFFFFF⟩ ]

/-- "A word is the command of a row iff (word AND mask) = match" (R113). -/
def OpRow.covers (r : OpRow) (w : Word) : Bool := w &&& r.mask == r.matchBits

/-- The command a row gives a word it covers (R114). -/
def OpRow.command (r : OpRow) (w : Word) : Instr :=
  match r.form with
  | .z c => c
  | .t => .jmp (Machine.jumpTarget w)
  | .i => .map (Machine.immediate w)

/-- Why a word is illegal: the three kinds of R115. -/
inductive IllegalWord where
  /-- `OP` is in no row. -/
  | unassignedOp
  /-- `OP` is of form Z and `OPND` is not 0. -/
  | operandNotZero
  /-- `OP` is of form T or I and bits 23:16 are not 0. -/
  | upperBitsNotZero
  deriving DecidableEq, Repr

/-- What a word decodes to (R114). -/
inductive Decoded where
  | command (i : Instr)
  | illegal (why : IllegalWord)
  deriving DecidableEq, Repr

/-- The kind of an illegal word, by its `OP` (R115). -/
def illegalKind (w : Word) : IllegalWord :=
  match opcodeTable.find? (fun r => Machine.opField r.matchBits == Machine.opField w) with
  | none => .unassignedOp
  | some ⟨.z _, _, _⟩ => .operandNotZero
  | some ⟨.t, _, _⟩ => .upperBitsNotZero
  | some ⟨.i, _, _⟩ => .upperBitsNotZero

/-- The decoder of R114. -/
def decode (w : Word) : Decoded :=
  match opcodeTable.find? (fun r => r.covers w) with
  | some r => .command (r.command w)
  | none => .illegal (illegalKind w)

/-- The opcode column of R113. -/
def Instr.op : Instr → BitVec 8
  | .nop => 0x00
  | .init => 0x01
  | .waitdata => 0x02
  | .halt => 0x03
  | .jmp _ => 0x04
  | .ingest => 0x10
  | .window => 0x20
  | .rfft => 0x21
  | .cmag => 0x22
  | .map _ => 0x30
  | .compose => 0x40
  | .advance => 0x41

/-- The operand field (R111). -/
def Instr.opnd : Instr → BitVec 24
  | .jmp target => Machine.opndT target
  | .map m => Machine.opndI m
  | .nop | .init | .waitdata | .halt | .ingest | .window | .rfft | .cmag | .compose | .advance => Machine.opndZ

/-- The word of a command: `OP` in bits 31:24, `OPND` in bits 23:0 (R110). -/
def encode (i : Instr) : Word := i.op.setWidth 32 <<< 24 ||| i.opnd.setWidth 32

/-- The decoder on the opcode table's numbering of bits: a command is one 32-bit word (R116). -/
def decodeTableWord (nbits w : Nat) : Option Instr :=
  match decode (BitVec.ofNat 32 (w % 2 ^ nbits)) with
  | .command i => some i
  | .illegal _ => none

end Sys2Proof
end

