-- ==== Sys2Proof/Machine/Arith.lean ====
section
/-! DEFINITION. The arithmetic primitives of 00_scope.md R9 and R12 to R18, and the exact evaluation of q15 of a cosine (R14, R171,
R172). All of it is exact integer arithmetic, narrowed once at the end. -/

namespace Sys2Proof.Machine

/-- `clamp(x, lo, hi) = min(max(x, lo), hi)` (R9). -/
def clamp (x lo hi : Int) : Int := min (max x lo) hi

/-- The arithmetic shift `x >> s = floor(x / 2^s)` (R9). -/
def asr (x : Int) (s : Nat) : Int := x / 2 ^ s

/-- Saturation to an `int16` (R12). -/
def sat16 (v : Int) : Sample := BitVec.ofInt 16 (clamp v (-32768) 32767)

/-- `rnd(x) = sign(x) * floor(|x| + 1/2)`, half away from zero (R13), of the rational `x = num / den`. -/
def rndDiv (num : Int) (den : Nat) : Int :=
  if num < 0 then -((2 * (-num) + den) / (2 * den)) else (2 * num + den) / (2 * den)

/-- `q15(x) = sat16(rnd(x * 32768))` (R14), of the rational `x = num / den`. -/
def q15 (num : Int) (den : Nat) : Sample := sat16 (rndDiv (32768 * num) den)

/-- The rounding right shift `(a + 2^(s-1)) >> s`, for s at least 1 (R15). -/
def rshr (a : Int) (s : Nat) : Int := asr (a + 2 ^ (s - 1)) s

/-- The floor square root of a number below `4^k`, two bits of the radicand at a time. -/
def isqrtBits : Nat → Nat → Nat
  | 0, _ => 0
  | k + 1, v =>
    let r := 2 * isqrtBits k (v / 4)
    if (r + 1) * (r + 1) ≤ v then r + 1 else r

/-- The largest `r` with `r * r ≤ v` (R16). -/
def isqrt (v : Nat) : Nat := isqrtBits (v.log2 / 2 + 1) v

/-- The Q15 product `sat16((a * b) >> 15)` (R17). -/
def qmul (a b : Sample) : Sample := sat16 (asr (a.toInt * b.toInt) 15)

/-- The saturating gain shift `sat16(x << G)` (R18). -/
def gshift (x : Sample) (G : Int) : Sample := sat16 (x.toInt * 2 ^ G.toNat)

/-! ### The cosine

`cos` in R171 and R172 is the exact real cosine. Its Taylor polynomial of degree 26 at a 20-decimal π is within 1e-18 of it, and R171
says any evaluation accurate to better than 1e-4 LSB gives the same tables (log entry 7). -/

/-- π to 20 decimals, scaled by `piScale`. -/
def piDigits : Nat := 314159265358979323846

/-- The scale of `piDigits`. -/
def piScale : Nat := 100000000000000000000

/-- `k` steps of Horner's rule, from the `j`-th on, for the Taylor polynomial of the cosine in `x² = a / b`:
`1 - x²/((2j-1)(2j)) * (1 - x²/((2j+1)(2j+2)) * …)`, as a numerator and a denominator. -/
def cosHorner (a b : Nat) : Nat → Nat → Int × Nat
  | 0, _ => (1, 1)
  | k + 1, j =>
    let r := cosHorner a b k (j + 1)
    let d := r.2 * b * ((2 * j - 1) * (2 * j))
    ((d : Int) - a * r.1, d)

/-- The cosine of `π * k / n`, for `2 * k ≤ n`, as a numerator and a denominator. -/
def cosFirstQuadrant (k n : Nat) : Int × Nat :=
  cosHorner ((piDigits * k) ^ 2) ((piScale * n) ^ 2) 13 1

/-- The cosine of `2 * π * m / n`, as a numerator and a denominator: the angle folded into the first quadrant by
`cos(2π - x) = cos x` and `cos(π - x) = -cos x`. -/
def cosTurn (m n : Nat) : Int × Nat :=
  let r := m % n
  let k := 2 * min r (n - r)
  if 2 * k ≤ n then cosFirstQuadrant k n
  else (-(cosFirstQuadrant (n - k) n).1, (cosFirstQuadrant (n - k) n).2)

/-- `q15(cos(2π m / n))` (R172). -/
def q15Cos (m n : Nat) : Sample := q15 (cosTurn m n).1 (cosTurn m n).2

/-- `q15(0.5 * (1 - cos(2π i / n)))` (R171). -/
def q15RaisedCos (i n : Nat) : Sample :=
  q15 ((cosTurn i n).2 - (cosTurn i n).1) (2 * (cosTurn i n).2)

end Sys2Proof.Machine
end

