-- ==== Sys2Proof/Config.lean ====
section
/-! DEFINITION. The configuration the block is elaborated with (00_scope.md R5), its defaults, and the free values: constants with no
body, of which nothing can be proved. -/

namespace Sys2Proof

/-- The configuration of R5: constant from reset onward, an argument of the model. The numbers are mathematical integers (R9), so that
an illegal configuration, which INIT must report (R276), can be written down. `CLUT` has 256 `uint16` entries by type (R227). `PROG` is
a list of words, and `P` its length (R51). -/
structure Config where
  /-- Transform size. -/
  N : Int
  /-- Step size, the block length. -/
  S : Int
  /-- Input gain shift. -/
  G : Int
  /-- Low bins the compositor discards. -/
  SKIP : Int
  /-- Colour scale maximum. -/
  SMAX : Int
  /-- Display width. -/
  W : Int
  /-- Display height. -/
  H : Int
  /-- Sample rate in Hz. -/
  RATE : Int
  /-- The colour table. -/
  CLUT : Vector Colour 256
  /-- The program memory. -/
  PROG : List Word
  deriving DecidableEq, Repr

/-- The colour table has no default (R227, OPEN in D7): an opaque value stands for it in the default configuration (log entry 4). -/
opaque Config.openClut : Fin 256 → Colour

/-- One choice of the environment (R95): which agent moves, or the reset input. -/
inductive Turn where
  /-- SEQ takes its step. -/
  | seq
  /-- The sample source delivers a block to CAP (R142). Its count is its length. -/
  | land (block : List Sample)
  /-- The reset input is asserted (R340). -/
  | reset
  deriving DecidableEq, Repr, Inhabited

/-- The choice of the environment numbered by the argument, where it has listed none: a draw under no law (R7, R95, R292, log entry 1). -/
opaque Config.freeTurn : Nat → Turn

/-- `disp_ok` of the INIT numbered by the argument, where the environment has listed no answer (R7, log entry 3). -/
opaque Config.dispAnswer : Nat → Bool

/-- `src_ok` of the INIT numbered by the argument, where the environment has listed no answer (R7, log entry 3). -/
opaque Config.srcAnswer : Nat → Bool

/-- What a host read of an array element with no value returns, by the number of the read: "a fresh draw at each read" (R87, log
entry 6). -/
opaque Config.freshElement : Nat → Sample

/-- What a command would read in an array element with no value. No reachable state has such a read (R63, log entry 5). -/
opaque Config.noValue : ArrayId → Nat → Sample

/-- The default program of R290, DOC's loop. -/
def Config.defaultProgram : List Word :=
  [0x01000000, 0x02000000, 0x10000000, 0x20000000, 0x21000000, 0x22000000, 0x40000000, 0x41000000, 0x04000001]

/-- The defaults of R5. -/
def Config.default : Config :=
  { N := 256, S := 64, G := 2, SKIP := 5, SMAX := 2000, W := 240, H := 240, RATE := 16000,
    CLUT := Vector.ofFn Config.openClut, PROG := Config.defaultProgram }

end Sys2Proof
end

