-- ==== Sys2Proof/Machine/State.lean ====
section
/-! DEFINITION. The state of the block (10_state.md R30), the environment's pending choices, and the state after reset (R62). -/

namespace Sys2Proof.Machine

/-- `RUNSTATE` (R32). -/
inductive RunState where
  | running
  | halted
  | faulted
  deriving DecidableEq, Repr

/-- The fault record (R35). -/
structure FaultRecord where
  /-- `CAUSE`. -/
  cause : BitVec 8
  /-- `FAULT_PC`. -/
  pc : BitVec 16
  /-- `FAULT_INFO`. -/
  info : BitVec 32
  deriving DecidableEq, Repr

/-- The data arrays (R42 to R48), element 0 first. An element the list does not reach has no value: reset leaves every array empty
(R63, log entry 5). -/
structure Memory where
  AW : List Sample
  WT : List Sample
  WF : List Sample
  SC : List Sample
  MS : List Sample
  CB : List Sample
  RB : List Colour
  deriving DecidableEq, Repr

/-- A port event (R60). -/
inductive Event where
  | dispInit (w h : Int)
  | dispClear
  | dispCursor (col row : Nat)
  | dispWrite (pixels : List Colour) (bytelen : Int)
  | dispVScroll (row : Nat)
  | srcConfig (rate bufsize : Int)
  | srcStart
  deriving DecidableEq, Repr

/-- The environment's two answers to one INIT (R7). -/
structure InitAnswer where
  dispOk : Bool
  srcOk : Bool
  deriving DecidableEq, Repr

/-- The environment's side: its listed turns and answers, the number of turns drawn past the list, and the number of INITs run (log
entries 1 and 3). -/
structure Env where
  turns : List Turn
  turnDraws : Nat
  answers : List InitAnswer
  draws : Nat
  deriving DecidableEq, Repr

/-- The state. `cfg` is the configuration with the constant memories `CLUT` and `PROG` (R49, R51); the twiddle table `TW` is a function
of `cfg.N` (R50). -/
structure State where
  cfg : Config
  /-- R31. -/
  pc : BitVec 16
  /-- R32. -/
  runState : RunState
  /-- `INIT_DONE` (R33). -/
  initDone : Bool
  /-- `SRC_RUNNING` (R34). -/
  srcRunning : Bool
  /-- The fault record (R35). -/
  fault : FaultRecord
  /-- `NEWDATA` (R36). -/
  newData : BitVec 16
  /-- `DROPS` (R37). -/
  drops : BitVec 32
  /-- `FRAMES` (R38). -/
  frames : BitVec 32
  /-- `CURSOR` (R39). -/
  cursor : BitVec 16
  /-- `LASTROW` (R40). -/
  lastRow : BitVec 16
  /-- `MAPRES` (R41). -/
  mapRes : BitVec 32
  /-- The data arrays (R42 to R48). -/
  mem : Memory
  /-- `EVENTS` (R60), oldest first. -/
  events : List Event
  /-- The environment's side. -/
  env : Env
  deriving DecidableEq, Repr

/-- Reasons for which the model's machine would stop. There are none: every fault of the block is a recorded state (R304), taken as a
next state, and a stuck state is an idle turn (log entry 2). -/
inductive Fault
  deriving DecidableEq, Repr

/-- Reasons for which the model would refuse an instruction. -/
inductive Refusal where
  /-- Raised by a dispatch arm without a meaning; no arm has it. Safe: the model stops where the hardware goes on. -/
  | notModelled (mnemonic : String)
  deriving DecidableEq, Repr

/-- Data arrays in which no element has a value (R63). -/
def Memory.unspecified : Memory :=
  { AW := [], WT := [], WF := [], SC := [], MS := [], CB := [], RB := [] }

/-- The state after reset (R62), for a configuration and an environment, neither of which reset touches (R340, R5). -/
def State.resetOf (cfg : Config) (env : Env) : State :=
  { cfg := cfg, pc := 0, runState := .running, initDone := false, srcRunning := false,
    fault := { cause := 0, pc := 0, info := 0 },
    newData := 0, drops := 0, frames := 0, cursor := 0, lastRow := 0, mapRes := 0,
    mem := Memory.unspecified, events := [], env := env }

/-- An environment that has lined up no choice: every turn and every answer is a draw (log entries 1 and 3). -/
def Env.quiet : Env := { turns := [], turnDraws := 0, answers := [], draws := 0 }

/-- The machine right after reset, in the default configuration of R5. -/
def State.reset : State := State.resetOf Config.default Env.quiet

end Sys2Proof.Machine
end

