-- ==== Sys2Proof/Machine/Ops.lean ====
section
/-! DEFINITION. The shared operations: the configuration's derived sizes and constant tables, reading and writing the data arrays, the
program counter, the port events, taking a fault (60_exceptions.md R304), the initialisation gate (45_sequencer.md R272), reset, and
the instruction fetch (R271). -/

namespace Sys2Proof

/-! ### The configuration -/

/-- The length of a data array: "a fixed length set by the configuration" (R42 to R48). DESIGN CHOICE, outside R5's ranges only: `N/2`
of an odd `N` is rounded down, and a negative length is 0 (log entries 16 and 21). -/
def Config.len (c : Config) : ArrayId → Nat
  | .aw | .wt | .wf | .sc => c.N.toNat
  | .ms => c.N.toNat / 2
  | .cb => c.S.toNat
  | .rb => c.W.toNat

/-- `P`, the number of program words (R51). -/
def Config.P (c : Config) : Nat := c.PROG.length

/-- `L = log2(N)` (R8). -/
def Config.L (c : Config) : Nat := c.N.toNat.log2

/-- `TW[m]`, the twiddle table (R50, R172). -/
def Config.twiddle (c : Config) (m : Nat) : Sample := Machine.q15Cos m c.N.toNat

/-- The value INIT writes to `WT[i]` (R171). -/
def Config.windowCoeff (c : Config) (i : Nat) : Sample := Machine.q15RaisedCos i c.N.toNat

namespace Machine

/-! ### The data arrays -/

/-- The elements of an array that hold a value. -/
def Memory.cells (m : Memory) : ArrayId → List Sample
  | .aw => m.AW
  | .wt => m.WT
  | .wf => m.WF
  | .sc => m.SC
  | .ms => m.MS
  | .cb => m.CB
  | .rb => m.RB

/-- Replace the elements of one array. -/
def Memory.setCells (m : Memory) (a : ArrayId) (xs : List Sample) : Memory :=
  match a with
  | .aw => { m with AW := xs }
  | .wt => { m with WT := xs }
  | .wf => { m with WF := xs }
  | .sc => { m with SC := xs }
  | .ms => { m with MS := xs }
  | .cb => { m with CB := xs }
  | .rb => { m with RB := xs }

/-- `A[i]`, where the element holds a value (R63). -/
def Memory.read (m : Memory) (a : ArrayId) (i : Nat) : Option Sample := (m.cells a)[i]?

/-- `A[i]` as a command reads it: the value, or a free value where there is none (R63 says no command meets that case). -/
def Memory.elem (m : Memory) (a : ArrayId) (i : Nat) : Sample := (m.read a i).getD (Config.noValue a i)

/-- `for i in [0, len): A[i] <- f(i)`, one simultaneous update of the whole array (R11). -/
def Memory.fill (m : Memory) (a : ArrayId) (len : Nat) (f : Nat → Sample) : Memory :=
  m.setCells a ((List.range len).map f)

/-- The canonical form: each array either holds no element or exactly its configured number. -/
def Memory.wf (c : Config) (m : Memory) : Bool :=
  [ArrayId.aw, .wt, .wf, .sc, .ms, .cb, .rb].all fun a =>
    (m.cells a).length == 0 || (m.cells a).length == c.len a

/-- Write every element of an array. -/
def State.fill (s : State) (a : ArrayId) (f : Nat → Sample) : State :=
  { s with mem := s.mem.fill a (s.cfg.len a) f }

/-- `A[i]` as the integer an `int16` element stands for. -/
def State.val (s : State) (a : ArrayId) (i : Nat) : Int := (s.mem.elem a i).toInt

/-! ### The program counter and the port events -/

/-- `pc <- pc + 1`. -/
def State.nextPc (s : State) : State := { s with pc := s.pc + 1 }

/-- `emit` events, in this order (R10, R60). -/
def State.emit (s : State) (es : List Event) : State := { s with events := s.events ++ es }

/-! ### Faults -/

/-- The causes of R301. -/
inductive Cause where
  | cfgInvalid
  | dispInitFail
  | srcInitFail
  | illegalCmd
  | pcRange
  | notInit
  | srcCount
  deriving DecidableEq, Repr

/-- The code column of R301. -/
def Cause.code : Cause → BitVec 8
  | .cfgInvalid => 1
  | .dispInitFail => 2
  | .srcInitFail => 3
  | .illegalCmd => 4
  | .pcRange => 5
  | .notInit => 6
  | .srcCount => 7

/-- `raise Fault(cause, info)` (R304): the step ends in this state. -/
def State.raise (s : State) (c : Cause) (info : Word) : State :=
  { s with fault := { cause := c.code, pc := s.pc, info := info }, runState := .faulted }

/-- The initialisation gate of a data command (R272): before a successful INIT it raises NOT_INIT with its own word. -/
def State.gated (s : State) (i : Instr) (effect : State → State) : State :=
  if s.initDone then effect s else s.raise .notInit (encode i)

/-! ### Reset and the environment's turns -/

/-- The reset input (R340): every piece of state to the value of R62, the configuration and the environment untouched. -/
def State.hardReset (s : State) : State := State.resetOf s.cfg s.env

/-- The state beside another environment. -/
def State.withEnv (s : State) (e : Env) : State := { s with env := e }

/-! ### Fetch -/

/-- The word at `pc`; none where `pc >= P` (R271). -/
def State.fetch (s : State) : Option Word := s.cfg.PROG[s.pc.toNat]?

end Machine

end Sys2Proof
end

