-- ==== Sys2Proof/Machine/ColorMap.lean ====
section
/-! DEFINITION. The colour mapper (43_color_map.md): the map function (R221, R222) and MAP (R225). -/

namespace Sys2Proof

/-- `mapIndex(m)` as an integer: 255 * m / SMAX, rounded half up (R221). -/
def Config.mapIndex (c : Config) (m : Int) : Int := (510 * Machine.clamp m 0 c.SMAX + c.SMAX) / (2 * c.SMAX)

/-- `mapIndex(m)` as the eight bits it takes: it lies in [0, 255] for a legal `SMAX` (R221). -/
def Config.mapIndexBits (c : Config) (m : Int) : BitVec 8 := BitVec.ofInt 8 (c.mapIndex m)

/-- `mapColour(m) = CLUT[mapIndex(m)]` (R222). -/
def Config.mapColour (c : Config) (m : Int) : Colour := c.CLUT.get (c.mapIndexBits m).toFin

namespace Machine

/-- `{8'b0, idx[7:0], colour[15:0]}` (R225). -/
def mapResult (idx : BitVec 8) (colour : Colour) : BitVec 32 := idx.setWidth 32 <<< 16 ||| colour.setWidth 32

/-- MAP past the gate (R225). -/
def mapImmediate (m : Int) (s : State) : State :=
  ({ s with mapRes := mapResult (s.cfg.mapIndexBits m) (s.cfg.mapColour m) }).nextPc

/-- MAP (R224, R225). -/
def execMap (m : Int) (s : State) : Host.Outcome State Fault Refusal := .next (s.gated (.map m) (mapImmediate m))

end Machine

end Sys2Proof
end

