-- ==== Sys2Proof/Machine/Compositor.lean ====
section
/-! DEFINITION. The compositor (44_compositor.md): COMPOSE (R243) and ADVANCE (R247). -/

namespace Sys2Proof.Machine

/-! ### COMPOSE -/

/-- `RB[x]`: R243 writes the colour of bin `SKIP + i` to the columns `W-1-2i` and `W-2-2i`, so column `x` shows `i = (W-1-x) div 2`. -/
def rowPixel (s : State) (x : Nat) : Colour :=
  s.cfg.mapColour (s.val .ms (s.cfg.SKIP.toNat + (s.cfg.len .rb - 1 - x) / 2))

/-- COMPOSE past the gate (R243). -/
def composeRow (s : State) : State := (s.fill .rb (rowPixel s)).nextPc

/-- COMPOSE (R242, R243). -/
def execCompose (s : State) : Host.Outcome State Fault Refusal := .next (s.gated .compose composeRow)

/-! ### ADVANCE -/

/-- `RB[0 .. W)`. -/
def State.row (s : State) : List Colour := (List.range (s.cfg.len .rb)).map fun x => s.mem.elem .rb x

/-- The three events of R247, in their order. -/
def State.rowEvents (s : State) : List Event :=
  [.dispCursor 0 s.cursor.toNat, .dispWrite s.row (2 * s.cfg.W), .dispVScroll s.cursor.toNat]

/-- `(r + 1) mod H` (R247). -/
def State.nextRow (s : State) : BitVec 16 := BitVec.ofNat 16 ((s.cursor.toNat + 1) % s.cfg.H.toNat)

/-- ADVANCE past the gate (R247). -/
def advanceScroll (s : State) : State :=
  ({ s.emit s.rowEvents with lastRow := s.cursor, cursor := s.nextRow, frames := s.frames + 1 }).nextPc

/-- ADVANCE (R246, R247). -/
def execAdvance (s : State) : Host.Outcome State Fault Refusal := .next (s.gated .advance advanceScroll)

end Sys2Proof.Machine
end

