-- ==== Sys2Proof/Machine/Init.lean ====
section
/-! DEFINITION. INIT (45_sequencer.md R275 to R280): its parts in the spec's order, one atomic step. -/

namespace Sys2Proof

/-! ### Part 1: the configuration check (R276) -/

/-- The supported transform sizes (R189). -/
def Config.okN (c : Config) : Bool := decide (c.N ∈ [(32 : Int), 64, 128, 256, 512, 1024])

/-- The legal step sizes. -/
def Config.okS (c : Config) : Bool := decide (1 ≤ c.S ∧ c.S ≤ c.N)

/-- The legal gain shifts. -/
def Config.okG (c : Config) : Bool := decide (0 ≤ c.G ∧ c.G ≤ 15)

/-- The legal display widths. -/
def Config.okW (c : Config) : Bool := decide (2 ≤ c.W ∧ c.W ≤ 1024 ∧ c.W % 2 = 0)

/-- The legal display heights. -/
def Config.okH (c : Config) : Bool := decide (1 ≤ c.H ∧ c.H ≤ 1024)

/-- `SKIP >= 0` and `SKIP + W/2 <= N/2` in exact quotients (R276, C10). -/
def Config.okSKIP (c : Config) : Bool := decide (0 ≤ c.SKIP ∧ 2 * c.SKIP + c.W ≤ c.N)

/-- The legal colour scales. -/
def Config.okSMAX (c : Config) : Bool := decide (1 ≤ c.SMAX ∧ c.SMAX ≤ 32767)

/-- The legal sample rates. -/
def Config.okRATE (c : Config) : Bool := decide (1 ≤ c.RATE ∧ c.RATE ≤ 2 ^ 32 - 1)

/-- `bad[k] = 1` unless the check holds. -/
def badBit (k : Nat) (ok : Bool) : Word := if ok then 0 else 1 <<< k

/-- The bit mask of the failed checks (R276, R301). -/
def Config.bad (c : Config) : Word :=
  badBit 0 c.okN ||| badBit 1 c.okS ||| badBit 2 c.okG ||| badBit 3 c.okW |||
    badBit 4 c.okH ||| badBit 5 c.okSKIP ||| badBit 6 c.okSMAX ||| badBit 7 c.okRATE

/-- Every check of R276 holds. -/
def Config.legal (c : Config) : Bool :=
  c.okN && c.okS && c.okG && c.okW && c.okH && c.okSKIP && c.okSMAX &&
    c.okRATE

namespace Machine

/-! ### Part 3: tables and clears (R278) -/

/-- What INIT writes to an element of each array (R278): the raised cosine in `WT`, 0 elsewhere. -/
def initialElement (c : Config) (a : ArrayId) (i : Nat) : Sample :=
  match a with
  | .wt => c.windowCoeff i
  | .aw | .wf | .sc | .ms | .cb | .rb => 0

/-- What INIT writes to each array, every element of it (R278). -/
def initialCells (c : Config) (a : ArrayId) : List Sample := (List.range (c.len a)).map (initialElement c a)

/-- The data arrays INIT leaves (R278): it writes every one, so nothing of the earlier contents stays. -/
def initialMemory (c : Config) : Memory :=
  { AW := initialCells c .aw, WT := initialCells c .wt, WF := initialCells c .wf, SC := initialCells c .sc,
    MS := initialCells c .ms, CB := initialCells c .cb, RB := initialCells c .rb }

/-- The tables and clears: every data array, the counters, the result registers (R278). -/
def State.cleared (s : State) : State :=
  { s with mem := initialMemory s.cfg, newData := 0, drops := 0, frames := 0, cursor := 0, lastRow := 0, mapRes := 0 }

/-! ### Parts 4 and 5: the sample source and completion (R279, R280) -/

/-- INIT's last writes: `SRC_RUNNING`, `INIT_DONE`, `pc` (R279, R280). -/
def State.started (s : State) : State := { s with srcRunning := true, initDone := true, pc := s.pc + 1 }

/-- Configure the source; if it starts, complete, else raise SRC_INIT_FAIL (R279). -/
def startSource (srcOk : Bool) (s : State) : State :=
  if srcOk then (s.emit [.srcConfig s.cfg.RATE s.cfg.S, .srcStart]).started
  else (s.emit [.srcConfig s.cfg.RATE s.cfg.S]).raise .srcInitFail 0

/-! ### The whole of INIT -/

/-- The two answers the environment gives to this INIT (R7): those lined up, or a draw. -/
def State.answer (s : State) : InitAnswer :=
  match s.env.answers with
  | a :: _ => a
  | [] => { dispOk := Config.dispAnswer s.env.draws, srcOk := Config.srcAnswer s.env.draws }

/-- The environment after this INIT's answers are used: "one per use" (R7). -/
def State.useAnswer (s : State) : State :=
  { s with env := { s.env with answers := s.env.answers.tail, draws := s.env.draws + 1 } }

/-- Parts 2 to 5, for a configuration that passed the check: the display sink first (R277). -/
def bringUp (a : InitAnswer) (s : State) : State :=
  if a.dispOk then startSource a.srcOk (s.emit [.dispInit s.cfg.W s.cfg.H, .dispClear]).cleared
  else (s.emit [.dispInit s.cfg.W s.cfg.H]).raise .dispInitFail 0

/-- INIT for given answers (R275). -/
def initBlock (a : InitAnswer) (s : State) : State :=
  if s.cfg.bad = 0#32 then bringUp a s else s.raise .cfgInvalid s.cfg.bad

/-- INIT (R275 to R280). It runs whether or not `INIT_DONE` is set. -/
def execInit (s : State) : Host.Outcome State Fault Refusal := .next (initBlock s.answer s.useAnswer)

end Machine

end Sys2Proof
end

