-- ==== Sys2Proof/Machine/Sequencer.lean ====
section
/-! DEFINITION. The sequencer's own commands: NOP, WAITDATA, JMP, HALT (45_sequencer.md R270, R282 to R285). INIT is in Init.lean. -/

namespace Sys2Proof.Machine

/-- NOP (R270). It runs before INIT. -/
def execNop (s : State) : Host.Outcome State Fault Refusal := .next s.nextPc

/-- WAITDATA past the gate (R282): blocked while `NEWDATA = 0`, the state then as it was. `NEWDATA` is never changed. -/
def waitForData (s : State) : State := if s.newData = 0#16 then s else s.nextPc

/-- WAITDATA (R282). -/
def execWaitdata (s : State) : Host.Outcome State Fault Refusal := .next (s.gated .waitdata waitForData)

/-- HALT (R285): `pc` keeps the HALT's index. It runs before INIT. -/
def execHalt (s : State) : Host.Outcome State Fault Refusal := .next { s with runState := .halted }

/-- The jump of R284: a target at or past `P` raises PC_RANGE with the target. -/
def jumpTo (target : Nat) (s : State) : State :=
  if s.cfg.P ≤ target then s.raise .pcRange (BitVec.ofNat 32 target) else { s with pc := BitVec.ofNat 16 target }

/-- JMP (R284). It runs before INIT. -/
def execJmp (target : Nat) (s : State) : Host.Outcome State Fault Refusal := .next (jumpTo target s)

end Sys2Proof.Machine
end

