-- ==== Sys2Proof/Machine/SlidingWindow.lean ====
section
/-! DEFINITION. The sliding window buffer (41_sliding_window.md): the landing of the capture agent (R141 to R143) and INGEST (R146). -/

namespace Sys2Proof.Machine

/-! ### The capture agent -/

/-- When CAP can land an offered block (R141). -/
def State.landingEnabled (s : State) : Bool := s.srcRunning && s.runState != .faulted

/-- `DROPS` after a landing: a block no INGEST has consumed is lost (R143). -/
def State.dropsAfterLanding (s : State) : BitVec 32 := if s.newData = 0#16 then s.drops else s.drops + 1

/-- The landing of R142. The count the drain returns is the block's length (log entry 9). -/
def land (block : List Sample) (s : State) : State :=
  if (block.length : Int) = s.cfg.S then
    { s.fill .cb (fun j => block[j]?.getD (Config.noValue .cb j)) with
      newData := BitVec.ofInt 16 s.cfg.S, drops := s.dropsAfterLanding }
  else s.raise .srcCount (BitVec.ofNat 32 block.length)

/-- A block is offered: it lands if a landing is enabled, and is lost otherwise (R141, R305). -/
def offer (block : List Sample) (s : State) : State := if s.landingEnabled then land block s else s

/-! ### INGEST -/

/-- `AW'[i]` of R146. -/
def shiftedIn (s : State) (i : Nat) : Sample :=
  let kept := s.cfg.len .aw - s.cfg.len .cb
  if i < kept then s.mem.elem .aw (i + s.cfg.len .cb) else gshift (s.mem.elem .cb (i - kept)) s.cfg.G

/-- INGEST past the gate (R146). -/
def ingestBlock (s : State) : State := ({ s.fill .aw (shiftedIn s) with newData := 0 }).nextPc

/-- INGEST (R145, R146). -/
def execIngest (s : State) : Host.Outcome State Fault Refusal := .next (s.gated .ingest ingestBlock)

end Sys2Proof.Machine
end

