-- ==== Sys2Proof/Machine/Spectral.lean ====
section
/-! DEFINITION. The spectral pipeline (42_spectral.md): WINDOW (R176), RFFT (R180), CMAG (R186). -/

namespace Sys2Proof.Machine

/-! ### WINDOW -/

/-- WINDOW past the gate (R176). -/
def windowFrame (s : State) : State := (s.fill .wf fun i => qmul (s.mem.elem .aw i) (s.mem.elem .wt i)).nextPc

/-- WINDOW (R175, R176). -/
def execWindow (s : State) : Host.Outcome State Fault Refusal := .next (s.gated .window windowFrame)

/-! ### RFFT -/

/-- `sum over n in [0, N) of WF[n] * TW[(k*n + phase) mod N]`, an exact integer (R180, R181). -/
def State.correlate (s : State) (k phase : Nat) : Int :=
  ((List.range s.cfg.N.toNat).map fun n =>
    s.val .wf n * (s.cfg.twiddle ((k * n + phase) % s.cfg.N.toNat)).toInt).sum

/-- `acc_re` of bin k (R180). -/
def State.accRe (s : State) (k : Nat) : Int := s.correlate k 0

/-- `acc_im` of bin k (R180): the phase `3*N/4` turns the cosine table into a sine. -/
def State.accIm (s : State) (k : Nat) : Int := -s.correlate k (3 * s.cfg.N.toNat / 4)

/-- One rounding and one saturation an output (R180). -/
def State.scaleBin (s : State) (acc : Int) : Sample := sat16 (rshr acc (15 + s.cfg.L))

/-- `SC[j]`: the real part of bin `j/2` at an even index, the imaginary part at an odd one (R45). -/
def State.spectrum (s : State) (j : Nat) : Sample :=
  if j % 2 = 0 then s.scaleBin (s.accRe (j / 2)) else s.scaleBin (s.accIm (j / 2))

/-- RFFT past the gate (R180). -/
def transformFrame (s : State) : State := (s.fill .sc s.spectrum).nextPc

/-- RFFT (R179, R180). -/
def execRfft (s : State) : Host.Outcome State Fault Refusal := .next (s.gated .rfft transformFrame)

/-! ### CMAG -/

/-- `min(isqrt(re*re + im*im), 32767)` (R186). -/
def magnitude (re im : Int) : Sample := BitVec.ofNat 16 (min (isqrt (re * re + im * im).toNat) 32767)

/-- CMAG past the gate (R186). -/
def magnitudes (s : State) : State :=
  (s.fill .ms fun k => magnitude (s.val .sc (2 * k)) (s.val .sc (2 * k + 1))).nextPc

/-- CMAG (R185, R186). -/
def execCmag (s : State) : Host.Outcome State Fault Refusal := .next (s.gated .cmag magnitudes)

end Sys2Proof.Machine
end

