-- ==== Sys2Proof/Machine/Dispatch.lean ====
section
/-! DEFINITION. The dispatch: one arm per command, one meaning per arm. -/

namespace Sys2Proof.Machine

def exec (i : Instr) (s : State) : Host.Outcome State Fault Refusal :=
  match i with
  | .nop => Sys2Proof.Machine.execNop s
  | .init => Sys2Proof.Machine.execInit s
  | .waitdata => Sys2Proof.Machine.execWaitdata s
  | .halt => Sys2Proof.Machine.execHalt s
  | .jmp target => Sys2Proof.Machine.execJmp target s
  | .ingest => Sys2Proof.Machine.execIngest s
  | .window => Sys2Proof.Machine.execWindow s
  | .rfft => Sys2Proof.Machine.execRfft s
  | .cmag => Sys2Proof.Machine.execCmag s
  | .map m => Sys2Proof.Machine.execMap m s
  | .compose => Sys2Proof.Machine.execCompose s
  | .advance => Sys2Proof.Machine.execAdvance s

end Sys2Proof.Machine
end

