-- ==== Sys2Proof/Machine/Flags.lean ====
section
/-! DEFINITION. The block has no condition codes (10_state.md R53). Its only status bits are the fields of STATUS (R64), assembled on
read. -/

namespace Sys2Proof.Machine

/-- STATUS.WAITING (R64): SEQ is blocked in a WAITDATA. -/
def State.waiting (s : State) : Bool :=
  s.runState == .running && s.initDone && s.fetch == some 0x02000000#32 && s.newData == 0#16

/-- STATUS.HALTED (R64). -/
def State.isHalted (s : State) : Bool := s.runState == .halted

/-- STATUS.FAULT (R64). -/
def State.isFaulted (s : State) : Bool := s.runState == .faulted

/-- STATUS (R64): bits 31:16 reserved, 15:8 CAUSE, 7:5 reserved, then SRC_RUNNING, WAITING, FAULT, HALTED, INIT_DONE. -/
def State.status (s : State) : Word :=
  s.fault.cause.setWidth 32 <<< 8 ||| (BitVec.ofBool s.srcRunning).setWidth 32 <<< 4 |||
    (BitVec.ofBool s.waiting).setWidth 32 <<< 3 ||| (BitVec.ofBool s.isFaulted).setWidth 32 <<< 2 |||
    (BitVec.ofBool s.isHalted).setWidth 32 <<< 1 ||| (BitVec.ofBool s.initDone).setWidth 32

end Sys2Proof.Machine
end

