-- ==== Sys2Proof/Machine/Turns.lean ====
section
/-! DEFINITION. One turn of the block: a step of SEQ (45_sequencer.md R271 to R273), a landing of CAP (41_sliding_window.md R142), or the
reset input (70_reset_and_hazards.md R340); and placing a word where the next fetch reads it. -/

namespace Sys2Proof.Machine

/-- Fetch, decode, execute, for a running SEQ: PC_RANGE before ILLEGAL_CMD before the command's own checks (R273, R303). -/
def State.runCommand (s : State) : Host.Outcome State Fault Refusal :=
  match s.fetch with
  | none => .next (s.raise .pcRange (s.pc.setWidth 32))
  | some w =>
    match decode w with
    | .illegal _ => .next (s.raise .illegalCmd w)
    | .command i => exec i s

/-- SEQ's turn (R273): HALTED and FAULTED leave it no step, and the turn passes (R32, log entry 2). -/
def State.seqTurn (s : State) : Host.Outcome State Fault Refusal :=
  match s.runState with
  | .running => s.runCommand
  | .halted => .next s
  | .faulted => .next s

/-- The turn the environment has chosen, and the state with that choice used up: the first listed one, and past the list a draw under no
law (log entry 1). -/
def State.nextTurn (s : State) : Turn × State :=
  match s.env.turns with
  | [] => (Config.freeTurn s.env.turnDraws, s.withEnv { s.env with turnDraws := s.env.turnDraws + 1 })
  | t :: ts => (t, s.withEnv { s.env with turns := ts })

/-- One turn. -/
def State.take (t : Turn) (s : State) : Host.Outcome State Fault Refusal :=
  match t with
  | .seq => s.seqTurn
  | .land block => .next (offer block s)
  | .reset => .next s.hardReset

/-- SEQ has an enabled step (R273). -/
def State.seqEnabled (s : State) : Bool := s.runState == .running && !s.waiting

/-- The program with `w` at index `i`; where the program is shorter, NOPs fill the gap. -/
def placeWord (prog : List Word) (i : Nat) (w : Word) : List Word :=
  (prog ++ List.replicate (i + 1 - prog.length) 0#32).set i w

/-- The turns with SEQ's first. -/
def seqFirst : List Turn → List Turn
  | .seq :: ts => .seq :: ts
  | ts => .seq :: ts

/-- `s` running, SEQ's turn next, and `w` in program space at `pc` (log entry 11). -/
def State.placeCommand (s : State) (w : Word) : State :=
  { s with cfg := { s.cfg with PROG := placeWord s.cfg.PROG s.pc.toNat w }, runState := .running,
           env := { s.env with turns := seqFirst s.env.turns } }

end Sys2Proof.Machine
end

