-- ==== Sys2Proof/Machine/Step.lean ====
section
/-! DEFINITION. One step of the block, and the placing of the next instruction word. -/

namespace Sys2Proof.Machine

/-- One step: the turn the environment has chosen (20_memory.md R95). -/
def step (s : State) : Host.Outcome State Fault Refusal := s.nextTurn.2.take s.nextTurn.1

/-- `s` with the instruction of `nbits` bits `w` where `step` fetches its next instruction. -/
def State.withFetchWord (s : State) (nbits w : Nat) : State := s.placeCommand (BitVec.ofNat 32 (w % 2 ^ nbits))

end Sys2Proof.Machine
end

