-- ==== Sys2Proof/Machine/Assembler.lean ====
section
/-! DEFINITION. The assembler's notation (30_encoding.md R117) and its pseudo-instructions (R118): from text to program words. It is no
part of the block's step; a program comes to run as the configuration's `PROG` (log entry 17). -/

namespace Sys2Proof.Machine

/-- The body of a statement (R117, R118). -/
inductive AsmBody where
  /-- A command with its operand written as a number. -/
  | command (i : Instr)
  /-- `JMP label`. -/
  | jumpTo (label : List Char)
  /-- `.word <uint32>`. -/
  | raw (w : Nat)
  /-- `ANALYZE`. -/
  | analyze
  /-- `FRAME`. -/
  | frame
  deriving DecidableEq, Repr

/-- A statement: `[label:] MNEMONIC [operand]` (R117). -/
structure AsmStatement where
  label : Option (List Char)
  body : AsmBody
  deriving DecidableEq, Repr

/-! ### From text to statements -/

/-- The pieces of a text between the characters that satisfy `p`. -/
def splitAtChars (p : Char → Bool) (cs : List Char) : List (List Char) :=
  cs.foldr (fun c acc =>
    match acc with
    | [] => if p c then [[], []] else [[c]]
    | x :: xs => if p c then [] :: x :: xs else (c :: x) :: xs) [[]]

/-- The words of a text between blanks. -/
def asmTokens (cs : List Char) : List (List Char) :=
  (splitAtChars (fun c => c == ' ' || c == '\t' || c == '\r') cs).filter (fun t => !t.isEmpty)

/-- The value of a digit, up to base 16. -/
def digitValue (c : Char) : Option Nat :=
  if '0' ≤ c ∧ c ≤ '9' then some (c.toNat - '0'.toNat)
  else if 'a' ≤ c ∧ c ≤ 'f' then some (c.toNat - 'a'.toNat + 10)
  else if 'A' ≤ c ∧ c ≤ 'F' then some (c.toNat - 'A'.toNat + 10)
  else none

/-- The value of a run of digits in a base. -/
def digitsValue (base : Nat) (acc : Nat) : List Char → Option Nat
  | [] => some acc
  | c :: cs =>
    match digitValue c with
    | some d => if d < base then digitsValue base (base * acc + d) cs else none
    | none => none

/-- An unsigned integer, decimal or `0x` hex. -/
def parseNumber (cs : List Char) : Option Nat :=
  match cs with
  | [] => none
  | ['0', 'x'] => none
  | '0' :: 'x' :: ds => digitsValue 16 0 ds
  | ds => digitsValue 10 0 ds

/-- A signed integer, decimal or `0x` hex. -/
def parseSigned (cs : List Char) : Option Int :=
  match cs with
  | '-' :: ds => (parseNumber ds).map fun n => -(n : Int)
  | ds => (parseNumber ds).map fun n => (n : Int)

/-- The mnemonics without an operand (R113), and the pseudo-instructions (R118). -/
def plainMnemonics : List (List Char × AsmBody) :=
  [ ("NOP".toList, .command .nop), ("INIT".toList, .command .init), ("WAITDATA".toList, .command .waitdata),
    ("HALT".toList, .command .halt), ("INGEST".toList, .command .ingest), ("WINDOW".toList, .command .window),
    ("RFFT".toList, .command .rfft), ("CMAG".toList, .command .cmag), ("COMPOSE".toList, .command .compose),
    ("ADVANCE".toList, .command .advance), ("ANALYZE".toList, .analyze), ("FRAME".toList, .frame) ]

/-- A command whose operand is in range (R117). -/
def inRange (i : Instr) : Option AsmBody := if i.wf then some (.command i) else none

/-- JMP's operand: an unsigned integer, or else a label (R117). -/
def parseJump (arg : List Char) : Option AsmBody :=
  match parseNumber arg with
  | some n => inRange (.jmp n)
  | none => some (.jumpTo arg)

/-- MAP's operand: `#` and a signed integer (R117). -/
def parseMap (arg : List Char) : Option AsmBody :=
  match arg with
  | '#' :: ds => (parseSigned ds).bind fun m => inRange (.map m)
  | _ => none

/-- `.word`'s operand: a `uint32` (R117). -/
def parseWord (arg : List Char) : Option AsmBody :=
  (parseNumber arg).bind fun w => if w < 2 ^ 32 then some (.raw w) else none

/-- The body of a statement, from its words. -/
def parseBody (tokens : List (List Char)) : Option AsmBody :=
  match tokens with
  | [m] => (plainMnemonics.find? fun p => p.1 == m).map fun p => p.2
  | [m, arg] =>
    if m = "JMP".toList then parseJump arg
    else if m = "MAP".toList then parseMap arg
    else if m = ".word".toList then parseWord arg
    else none
  | _ => none

/-- The statement of a line without its comment. -/
def parseStatement (line : List Char) : Option AsmStatement :=
  match splitAtChars (· == ':') line with
  | [body] => (parseBody (asmTokens body)).map fun b => { label := none, body := b }
  | [label, body] =>
    match asmTokens label with
    | [l] => (parseBody (asmTokens body)).map fun b => { label := some l, body := b }
    | _ => none
  | _ => none

/-- The statements of a text: one a line, what follows `;` a comment; a line with nothing else holds no statement. -/
def parseLines : List (List Char) → Option (List AsmStatement)
  | [] => some []
  | l :: ls =>
    let code := l.takeWhile (· != ';')
    if (asmTokens code).isEmpty then parseLines ls
    else
      match parseStatement code, parseLines ls with
      | some s, some rest => some (s :: rest)
      | _, _ => none

/-! ### From statements to words -/

/-- The expansion of R118; every other body is one word. -/
def AsmBody.commands : AsmBody → List Instr
  | .analyze => [.window, .rfft, .cmag]
  | .frame => [.ingest, .window, .rfft, .cmag, .compose, .advance]
  | .command i => [i]
  | .jumpTo _ => []
  | .raw _ => []

/-- The number of words a statement takes. -/
def AsmBody.size : AsmBody → Nat
  | .analyze => 3
  | .frame => 6
  | .command _ => 1
  | .jumpTo _ => 1
  | .raw _ => 1

/-- The labels with the index of the statement each names; on a pseudo-instruction, its first command (R118). -/
def labelsFrom (at_ : Nat) : List AsmStatement → List (List Char × Nat)
  | [] => []
  | s :: ss =>
    match s.label with
    | some l => (l, at_) :: labelsFrom (at_ + s.body.size) ss
    | none => labelsFrom (at_ + s.body.size) ss

/-- The words of a statement's body, a label's target looked up. -/
def AsmBody.words (labels : List (List Char × Nat)) (b : AsmBody) : Option (List Word) :=
  match b with
  | .jumpTo l =>
    (labels.find? fun p => p.1 == l).bind fun p => if p.2 < 65536 then some [encode (.jmp p.2)] else none
  | .raw w => some [BitVec.ofNat 32 w]
  | .command i => some [encode i]
  | .analyze => some (AsmBody.analyze.commands.map encode)
  | .frame => some (AsmBody.frame.commands.map encode)

/-- The words of the statements, in order from program index 0 (R117). -/
def emitWords (labels : List (List Char × Nat)) : List AsmStatement → Option (List Word)
  | [] => some []
  | s :: ss =>
    match s.body.words labels, emitWords labels ss with
    | some ws, some rest => some (ws ++ rest)
    | _, _ => none

/-- The program words of statements; none where two statements have one label or a label is not defined. -/
def assembleStatements (ss : List AsmStatement) : Option (List Word) :=
  let labels := labelsFrom 0 ss
  if (labels.map fun p => p.1).Nodup then emitWords labels ss else none

/-- The program words of an assembly text (R117, R118). -/
def assemble (text : String) : Option (List Word) :=
  (parseLines (splitAtChars (· == '\n') text.toList)).bind assembleStatements

end Sys2Proof.Machine
end

