-- ==== Sys2Proof/Machine/HostPort.lean ====
section
/-! DEFINITION. The host readback port (20_memory.md R83 to R91): an observation of the state, never a step (R86, R94). -/

namespace Sys2Proof.Machine

/-- The port's answer to an access (R85). -/
inductive BusResponse where
  | ok (w : Word)
  | busErr
  deriving DecidableEq, Repr

/-- The register at a byte address (R83), packed into 32 bits (R64, R65). -/
def State.register (s : State) (addr : Nat) : Option Word :=
  match addr with
  | 0x0000 => some s.status
  | 0x0004 => some (s.pc.setWidth 32)
  | 0x0008 => some (s.fault.pc.setWidth 32)
  | 0x000C => some s.fault.info
  | 0x0010 => some (s.newData.setWidth 32)
  | 0x0014 => some s.drops
  | 0x0018 => some s.frames
  | 0x001C => some (s.cursor.setWidth 32)
  | 0x0020 => some (s.lastRow.setWidth 32)
  | 0x0024 => some s.mapRes
  | 0x0040 => some (BitVec.ofInt 32 s.cfg.N)
  | 0x0044 => some (BitVec.ofInt 32 s.cfg.S)
  | 0x0048 => some (BitVec.ofInt 32 s.cfg.G)
  | 0x004C => some (BitVec.ofInt 32 s.cfg.SKIP)
  | 0x0050 => some (BitVec.ofInt 32 s.cfg.SMAX)
  | 0x0054 => some (BitVec.ofInt 32 s.cfg.W)
  | 0x0058 => some (BitVec.ofInt 32 s.cfg.H)
  | 0x005C => some (BitVec.ofNat 32 s.cfg.P)
  | 0x0060 => some (BitVec.ofInt 32 s.cfg.RATE)
  | 0x0064 => some 16#32
  | _ => none

/-- The data arrays by their 4 KiB window (R84). -/
def arrayWindow (window : Nat) : Option ArrayId :=
  match window with
  | 0x1 => some .aw
  | 0x2 => some .wt
  | 0x3 => some .wf
  | 0x4 => some .sc
  | 0x5 => some .ms
  | 0x6 => some .cb
  | 0x7 => some .rb
  | _ => none

/-- The word of an array element: colours zero-extended, samples sign-extended (R87). -/
def extendElement (a : ArrayId) (x : Sample) : Word := if a = .rb then x.setWidth 32 else x.signExtend 32

/-- The word of element `i` of a data array, mapped only below the array's length (R84). An element with no value reads as the fresh
draw of the read's number (R87). -/
def State.arrayWord (s : State) (draw : Nat) (a : ArrayId) (i : Nat) : Option Word :=
  if i < s.cfg.len a then some (extendElement a ((s.mem.read a i).getD (Config.freshElement draw))) else none

/-- The word of element `i` of a constant memory, by its window (R84). -/
def State.constantWord (s : State) (window i : Nat) : Option Word :=
  match window with
  | 0x8 => if h : i < 256 then some ((s.cfg.CLUT.get ⟨i, h⟩).setWidth 32) else none
  | 0x9 => if i < s.cfg.N.toNat then some ((s.cfg.twiddle i).signExtend 32) else none
  | 0xA => s.cfg.PROG[i]?
  | _ => none

/-- The word mapped at a word-aligned byte address, if any (R83, R84). DESIGN CHOICE, outside R5's ranges only: an array of more than
1024 elements shows its first 1024, the words of its 4 KiB window (log entries 12 and 21). -/
def State.mapped (s : State) (draw : Nat) (addr : Nat) : Option Word :=
  if addr < 0x1000 then s.register addr
  else
    match arrayWindow (addr / 0x1000) with
    | some a => s.arrayWord draw a (addr % 0x1000 / 4)
    | none => s.constantWord (addr / 0x1000) (addr % 0x1000 / 4)

/-- `MemRead(addr, size)` (R85), the `draw`-th host read. -/
def State.memRead (s : State) (draw : Nat) (addr : BitVec 16) (size : Nat) : BusResponse :=
  if size ≠ 4 then .busErr
  else if addr.toNat % 4 ≠ 0 then .busErr
  else
    match s.mapped draw addr.toNat with
    | some w => .ok w
    | none => .busErr

/-- A host write of any size to any address (R85): BUSERR, the state as it was. -/
def State.memWrite (s : State) (_addr : BitVec 16) (_size : Nat) (_data : Word) : BusResponse × State := (.busErr, s)

/-- Byte lane `k` of a host word: bits `8k+7 : 8k`, little-endian (R88). -/
def byteLane (w : Word) (k : Nat) : BitVec 8 := w.extractLsb' (8 * k) 8

end Sys2Proof.Machine
end

