-- ==== Sys2Proof/Machine/Sink.lean ====
section
/-! DEFINITION. The spec's model of the external display sink (44_compositor.md R250, R251): no state of the block (10_state.md R55), a
function of the event trace. -/

namespace Sys2Proof.Machine

/-- The sink's state (R250). A pixel is `none` while it has no value (`FB` unspecified after `DispInit`, U3). -/
structure Sink where
  width : Nat
  height : Nat
  /-- `FB`, row by row. -/
  fb : List (List (Option Colour))
  /-- `VS`. -/
  vs : Nat
  /-- The write cursor's column. -/
  col : Nat
  /-- The write cursor's row. -/
  row : Nat
  deriving DecidableEq, Repr

/-- A write the model covers: from column 0 with the byte length of one row (R250, U11). DESIGN CHOICE, where R250 is silent: it also
needs one pixel a column and a row of the frame buffer (log entry 14). -/
abbrev Sink.takesRow (k : Sink) (pixels : List Colour) (bytelen : Int) : Prop :=
  k.col = 0 ∧ bytelen = 2 * (k.width : Int) ∧ pixels.length = k.width ∧ k.row < k.height

/-- The effect of one event (R250), `clear` the sink's parameter `CLEAR`. A `DispWrite` that is no whole row of the frame buffer gives
no sink: none (log entry 14). The source's events do not reach the sink. -/
def Sink.apply (clear : Colour) (k : Sink) (e : Event) : Option Sink :=
  match e with
  | .dispInit w h =>
    some { width := w.toNat, height := h.toNat, fb := List.replicate h.toNat (List.replicate w.toNat none), vs := 0, col := 0, row := 0 }
  | .dispClear => some { k with fb := List.replicate k.height (List.replicate k.width (some clear)) }
  | .dispCursor col row => some { k with col := col, row := row }
  | .dispWrite pixels bytelen =>
    if k.takesRow pixels bytelen then some { k with fb := k.fb.set k.row (pixels.map some) } else none
  | .dispVScroll row => some { k with vs := row }
  | .srcConfig _ _ => some k
  | .srcStart => some k

/-- The effect of a trace, oldest event first. -/
def Sink.run (clear : Colour) (k : Sink) : List Event → Option Sink
  | [] => some k
  | e :: es =>
    match k.apply clear e with
    | some k' => k'.run clear es
    | none => none

/-- Screen line `v` shows frame-buffer row `(VS + v) mod H` (R251). -/
def Sink.line (k : Sink) (v : Nat) : Option (List (Option Colour)) := k.fb[(k.vs + v) % k.height]?

/-- The default of `CLEAR` (R250). -/
def Sink.defaultClear : Colour := 0x0000

end Sys2Proof.Machine
end

