-- ==== Sys2Proof/Safety.lean ====
section
/-! DEFINITION. What counts as a good end, a bad end and a wait (45_sequencer.md R291), and the invariants of a reachable state
(10_state.md R67, 60_exceptions.md R306). -/

namespace Sys2Proof.Machine

/-- "A run ends well when `RUNSTATE = HALTED`" (R291). -/
abbrev State.EndedWell (s : State) : Prop := s.runState = .halted

/-- "A run ends in fault when `RUNSTATE = FAULTED`": never a good end (R291). -/
abbrev State.EndedInFault (s : State) : Prop := s.runState = .faulted

/-- SEQ blocked in WAITDATA: stuck, not ended (R291). -/
abbrev State.Blocked (s : State) : Prop := s.waiting = true

/-- The reset input is not this step's turn. -/
def State.NoReset (s : State) : Prop := s.nextTurn.1 ≠ .reset

/-- Every element of the array holds a value. -/
def State.Full (s : State) (a : ArrayId) : Prop := (s.mem.cells a).length = s.cfg.len a

/-- What R67 lists of a state in which INIT has succeeded, with the facts it rests on: the configuration passed INIT's check, and every
array is written. -/
structure State.Ready (s : State) : Prop where
  legal : s.cfg.legal = true
  full : ∀ a, s.Full a
  newData : s.newData = 0#16 ∨ s.newData = BitVec.ofInt 16 s.cfg.S
  cursor : (s.cursor.toNat : Int) < s.cfg.H
  lastRow : (s.lastRow.toNat : Int) < s.cfg.H
  magnitudes : ∀ k, k < s.cfg.len .ms → 0 ≤ s.val .ms k ∧ s.val .ms k ≤ 32767
  window : ∀ i, i < s.cfg.len .wt → s.mem.read .wt i = some (s.cfg.windowCoeff i)
  dcImag : s.mem.read .sc 1 = some 0#16
  mapRes : s.mapRes.extractLsb' 24 8 = 0#8

/-- The invariant of the block: the source runs exactly when INIT has succeeded (R33, R34), and then the state is `Ready` (R67); a cause
is recorded exactly when the block is faulted, and is one of R301's (R306, U21); a faulted block still stands at the recorded `pc`
(R304, R305). -/
structure State.Inv (s : State) : Prop where
  flags : s.srcRunning = s.initDone
  ready : s.initDone = true → s.Ready
  cause : s.fault.cause = 0#8 ↔ s.runState ≠ .faulted
  causeRange : s.fault.cause.toNat ≤ 7
  faultPc : s.runState = .faulted → s.fault.pc = s.pc

/-- The canonical form of the data arrays, at the state's own configuration. -/
abbrev State.MemoryForm (s : State) : Prop := Memory.wf s.cfg s.mem = true

/-- Two memories agree on every element of every array but one. -/
def Memory.SameExcept (a : ArrayId) (m m' : Memory) : Prop := ∀ b, b ≠ a → ∀ i, m'.read b i = m.read b i

/-- A sequence of commands executed one after another, stopping where one answers no next state. -/
def execAll : List Instr → State → Host.Outcome State Fault Refusal
  | [], s => .next s
  | i :: is, s =>
    match exec i s with
    | .next t => execAll is t
    | .fault r => .fault r
    | .refused r => .refused r

/-- A sequence of turns taken one after another, whatever the environment has listed. -/
def takeAll : List Turn → State → Host.Outcome State Fault Refusal
  | [], s => .next s
  | t :: ts, s =>
    match s.take t with
    | .next u => takeAll ts u
    | .fault r => .fault r
    | .refused r => .refused r

/-- A sequence of blocks, each landed and then ingested. -/
def landAndIngest : List (List Sample) → State → Host.Outcome State Fault Refusal
  | [], s => .next s
  | b :: bs, s =>
    match exec .ingest (offer b s) with
    | .next t => landAndIngest bs t
    | .fault r => .fault r
    | .refused r => .refused r

end Sys2Proof.Machine
end

