-- ==== Sys2Proof/Certificates/Slice0/Obligations.lean ====
section
/-! DEFINITION. The statements for the provers. -/

open Sys2Proof Sys2Proof.Machine

/-! ### Encoding (30_encoding.md) -/

/-- Decoding the word of a well-formed command gives it back: no bit of an operand is dropped. -/
def Obligations.DecodeOfEncodeIsTheCommand : Prop :=
  ∀ i : Instr, i.wf = true → decode (encode i) = .command i

/-- Every legal word is the word of the command it decodes to, and that command is well-formed: one word, one command. -/
def Obligations.EncodeOfDecodeIsTheWord : Prop :=
  ∀ (w : Word) (i : Instr), decode w = .command i → i.wf = true ∧ encode i = w

/-- R113, row by row: a word is the command of a row exactly when it agrees with the row's match under the row's mask, its operand read
as R112 says. Each word is at most one command, since `decode` is a function. -/
def Obligations.WordIsCommandExactlyUnderMask : Prop :=
  ∀ w : Word,
    (decode w = .command .nop ↔ w &&& 0xFFFFFFFF#32 = 0x00000000#32) ∧
    (decode w = .command .init ↔ w &&& 0xFFFFFFFF#32 = 0x01000000#32) ∧
    (decode w = .command .waitdata ↔ w &&& 0xFFFFFFFF#32 = 0x02000000#32) ∧
    (decode w = .command .halt ↔ w &&& 0xFFFFFFFF#32 = 0x03000000#32) ∧
    (∀ target, decode w = .command (.jmp target) ↔
      w &&& 0xFFFF0000#32 = 0x04000000#32 ∧ target = (w &&& 0xFFFF#32).toNat) ∧
    (decode w = .command .ingest ↔ w &&& 0xFFFFFFFF#32 = 0x10000000#32) ∧
    (decode w = .command .window ↔ w &&& 0xFFFFFFFF#32 = 0x20000000#32) ∧
    (decode w = .command .rfft ↔ w &&& 0xFFFFFFFF#32 = 0x21000000#32) ∧
    (decode w = .command .cmag ↔ w &&& 0xFFFFFFFF#32 = 0x22000000#32) ∧
    (∀ m, decode w = .command (.map m) ↔
      w &&& 0xFFFF0000#32 = 0x30000000#32 ∧
        m = if (w &&& 0xFFFF#32).toNat < 32768 then ((w &&& 0xFFFF#32).toNat : Int) else (w &&& 0xFFFF#32).toNat - 65536) ∧
    (decode w = .command .compose ↔ w &&& 0xFFFFFFFF#32 = 0x40000000#32) ∧
    (decode w = .command .advance ↔ w &&& 0xFFFFFFFF#32 = 0x41000000#32)

/-- R115: the illegal words are exactly its three kinds, and an illegal word raises ILLEGAL_CMD with itself when SEQ fetches it (the turn
is SEQ's). -/
def Obligations.IllegalWordsAreThreeKindsAndFault : Prop :=
  (∀ w : Word, (∃ why, decode w = .illegal why) ↔
    ((0x05 ≤ w.toNat / 2 ^ 24 ∧ w.toNat / 2 ^ 24 ≤ 0x0F) ∨ (0x11 ≤ w.toNat / 2 ^ 24 ∧ w.toNat / 2 ^ 24 ≤ 0x1F) ∨
      (0x23 ≤ w.toNat / 2 ^ 24 ∧ w.toNat / 2 ^ 24 ≤ 0x2F) ∨ (0x31 ≤ w.toNat / 2 ^ 24 ∧ w.toNat / 2 ^ 24 ≤ 0x3F) ∨
      (0x42 ≤ w.toNat / 2 ^ 24 ∧ w.toNat / 2 ^ 24 ≤ 0xFF)) ∨
    (w.toNat / 2 ^ 24 ∈ [0x00, 0x01, 0x02, 0x03, 0x10, 0x20, 0x21, 0x22, 0x40, 0x41] ∧ w.toNat % 2 ^ 24 ≠ 0) ∨
    (w.toNat / 2 ^ 24 ∈ [0x04, 0x30] ∧ w.toNat / 2 ^ 16 % 2 ^ 8 ≠ 0)) ∧
  ∀ (s : State) (w : Word) (why : IllegalWord) (e : Env), s.runState = .running → s.nextTurn = (.seq, { s with env := e }) →
    s.cfg.PROG[s.pc.toNat]? = some w → decode w = .illegal why →
    step s = .next { s with fault := { cause := 4, pc := s.pc, info := w }, runState := .faulted, env := e }

/-- R119: the words of its table. -/
def Obligations.EncodingExamplesDecode : Prop :=
  decode 0x00000000#32 = .command .nop ∧ decode 0x01000000#32 = .command .init ∧ decode 0x02000000#32 = .command .waitdata ∧
  decode 0x03000000#32 = .command .halt ∧ decode 0x04000001#32 = .command (.jmp 1) ∧
  decode 0x040003FF#32 = .command (.jmp 1023) ∧ decode 0x10000000#32 = .command .ingest ∧
  decode 0x20000000#32 = .command .window ∧ decode 0x21000000#32 = .command .rfft ∧ decode 0x22000000#32 = .command .cmag ∧
  decode 0x300007D0#32 = .command (.map 2000) ∧ decode 0x3000FFFB#32 = .command (.map (-5)) ∧
  decode 0x30008000#32 = .command (.map (-32768)) ∧ decode 0x40000000#32 = .command .compose ∧
  decode 0x41000000#32 = .command .advance ∧ (∃ why, decode 0x00000001#32 = .illegal why) ∧
  (∃ why, decode 0x04010000#32 = .illegal why) ∧ (∃ why, decode 0x05000000#32 = .illegal why)

/-- R118: each pseudo-instruction assembles to the words of its expansion, in place, whatever its label. -/
def Obligations.PseudoInstructionsExpandInPlace : Prop :=
  ∀ (labels : List (List Char × Nat)) (l : Option (List Char)) (ss : List AsmStatement) (rest : List Word),
    emitWords labels ss = some rest →
    emitWords labels ({ label := l, body := .analyze } :: ss) =
      some ([0x20000000#32, 0x21000000#32, 0x22000000#32] ++ rest) ∧
    emitWords labels ({ label := l, body := .frame } :: ss) =
      some ([0x10000000#32, 0x20000000#32, 0x21000000#32, 0x22000000#32, 0x40000000#32, 0x41000000#32] ++ rest)

/-! ### The step (45_sequencer.md R271 to R273) -/

/-- When the word at `pc` decodes to a command, SEQ's step is that command's execution at that state, the environment's choice, listed
or drawn, used up (log entry 1). -/
def Obligations.StepExecutesTheDecodedCommand : Prop :=
  ∀ (s : State) (w : Word) (i : Instr) (e : Env), s.runState = .running → s.nextTurn = (.seq, { s with env := e }) →
    s.cfg.PROG[s.pc.toNat]? = some w → decode w = .command i → step s = exec i { s with env := e }

/-- R271: in a turn of SEQ, listed or drawn, a fetch at or past `P` raises PC_RANGE with `pc`, whatever else holds. -/
def Obligations.FetchPastTheProgramRaisesPcRange : Prop :=
  ∀ (s : State) (e : Env), s.runState = .running → s.nextTurn = (.seq, { s with env := e }) → s.cfg.PROG.length ≤ s.pc.toNat →
    step s = .next
      { s with fault := { cause := 5, pc := s.pc, info := s.pc.setWidth 32 }, runState := .faulted, env := e }

/-- R272: an illegal word raises ILLEGAL_CMD, and before INIT every command but NOP, INIT, HALT and JMP raises NOT_INIT, each with the
word as fetched, in a turn of SEQ. -/
def Obligations.DecodeGateRaisesWithTheWord : Prop :=
  ∀ (s : State) (w : Word) (e : Env), s.runState = .running → s.nextTurn = (.seq, { s with env := e }) →
    s.cfg.PROG[s.pc.toNat]? = some w →
    (∀ why, decode w = .illegal why →
      step s = .next { s with fault := { cause := 4, pc := s.pc, info := w }, runState := .faulted, env := e }) ∧
    (∀ i, decode w = .command i → i ∉ [Instr.nop, .init, .halt] → (∀ target, i ≠ .jmp target) → s.initDone = false →
      step s = .next { s with fault := { cause := 6, pc := s.pc, info := w }, runState := .faulted, env := e })

/-- Every step of the model answers a next state: no instruction is refused, none stops the model (log entry 2 says what a turn with no
enabled step does). -/
def Obligations.EveryStepAnswersNext : Prop := ∀ s : State, ∃ s', step s = .next s'

/-- A turn of SEQ, listed or drawn, with no enabled step leaves the block as it was: HALTED, FAULTED, or blocked in WAITDATA. The idle
turn is the model's reading of "no step" (log entry 2). -/
def Obligations.SeqWithoutEnabledStepChangesNothing : Prop :=
  ∀ (s : State) (e : Env), s.seqEnabled = false → s.nextTurn = (.seq, { s with env := e }) → step s = .next { s with env := e }

/-! ### Sequencer commands (45_sequencer.md) -/

/-- R270: NOP advances `pc` and changes nothing else, before or after INIT. -/
def Obligations.NopAdvancesPcOnly : Prop := ∀ s : State, exec .nop s = .next { s with pc := s.pc + 1 }

/-- R284: JMP sets `pc` to a target below `P`, before or after INIT, and nothing else; a target at or past `P` raises PC_RANGE with it. -/
def Obligations.JmpSetsPcOrRaisesPcRange : Prop :=
  ∀ (s : State) (target : Nat), target < 65536 →
    (target < s.cfg.PROG.length →
      ∃ p : BitVec 16, p.toNat = target ∧ exec (.jmp target) s = .next { s with pc := p }) ∧
    (s.cfg.PROG.length ≤ target →
      ∃ f : BitVec 32, f.toNat = target ∧
        exec (.jmp target) s = .next { s with fault := { cause := 5, pc := s.pc, info := f }, runState := .faulted })

/-- R282: WAITDATA proceeds while `NEWDATA` is nonzero, which it does not clear, and is blocked, nothing changed and STATUS.WAITING 1,
while it is 0. -/
def Obligations.WaitdataProceedsOrBlocks : Prop :=
  ∀ s : State, s.initDone = true →
    (s.newData ≠ 0#16 → exec .waitdata s = .next { s with pc := s.pc + 1 }) ∧
    (s.newData = 0#16 → exec .waitdata s = .next s ∧
      (s.runState = .running → s.cfg.PROG[s.pc.toNat]? = some 0x02000000#32 → s.status.getLsbD 3 = true))

/-- HALT sets `RUNSTATE` and leaves `pc` and everything else, before or after INIT; after it SEQ's turns, listed or drawn, change nothing
of the block (log entry 2). -/
def Obligations.HaltStopsSeq : Prop :=
  ∀ s : State, exec .halt s = .next { s with runState := .halted } ∧
    ∀ e, s.nextTurn = (.seq, { s with env := e }) →
      step { s with runState := .halted } = .next { s with runState := .halted, env := e }

/-! ### INIT (45_sequencer.md R275 to R280) -/

/-- INIT in a legal configuration with both answers true: the four events in order, every array and counter, `SRC_RUNNING`,
`INIT_DONE`, `pc`; the fault record and the configuration untouched. -/
def Obligations.InitBringsUpTheBlock : Prop :=
  ∀ s : State, s.cfg.legal = true → s.answer.dispOk = true → s.answer.srcOk = true →
    ∃ m : Memory,
      exec .init s = .next
        { s with
          pc := s.pc + 1, initDone := true, srcRunning := true, newData := 0, drops := 0, frames := 0, cursor := 0, lastRow := 0,
          mapRes := 0, mem := m,
          events := s.events ++
            [.dispInit s.cfg.W s.cfg.H, .dispClear, .srcConfig s.cfg.RATE s.cfg.S, .srcStart],
          env := { s.env with answers := s.env.answers.tail, draws := s.env.draws + 1 } } ∧
      (∀ i, m.read .wt i = if i < s.cfg.N.toNat then some (s.cfg.windowCoeff i) else none) ∧
      (∀ i, m.read .aw i = if i < s.cfg.N.toNat then some 0 else none) ∧
      (∀ i, m.read .wf i = if i < s.cfg.N.toNat then some 0 else none) ∧
      (∀ i, m.read .sc i = if i < s.cfg.N.toNat then some 0 else none) ∧
      (∀ i, m.read .ms i = if i < s.cfg.N.toNat / 2 then some 0 else none) ∧
      (∀ i, m.read .cb i = if i < s.cfg.S.toNat then some 0 else none) ∧
      (∀ i, m.read .rb i = if i < s.cfg.W.toNat then some 0 else none)

/-- R276: an illegal configuration raises CFG_INVALID before INIT writes anything, and `FAULT_INFO` has exactly the bits of the failed
checks. The environment's answers are used up with every INIT (log entry 3). -/
def Obligations.InitReportsEveryFailedCheck : Prop :=
  ∀ s : State,
    ¬ (s.cfg.N ∈ [(32 : Int), 64, 128, 256, 512, 1024] ∧ (1 ≤ s.cfg.S ∧ s.cfg.S ≤ s.cfg.N) ∧ (0 ≤ s.cfg.G ∧ s.cfg.G ≤ 15) ∧
        (2 ≤ s.cfg.W ∧ s.cfg.W ≤ 1024 ∧ s.cfg.W % 2 = 0) ∧ (1 ≤ s.cfg.H ∧ s.cfg.H ≤ 1024) ∧
        (0 ≤ s.cfg.SKIP ∧ 2 * s.cfg.SKIP + s.cfg.W ≤ s.cfg.N) ∧ (1 ≤ s.cfg.SMAX ∧ s.cfg.SMAX ≤ 32767) ∧
        (1 ≤ s.cfg.RATE ∧ s.cfg.RATE ≤ 4294967295)) →
    ∃ bad : BitVec 32,
      exec .init s = .next
        { s with
          fault := { cause := 1, pc := s.pc, info := bad }, runState := .faulted,
          env := { s.env with answers := s.env.answers.tail, draws := s.env.draws + 1 } } ∧
      (bad.getLsbD 0 = true ↔ s.cfg.N ∉ [(32 : Int), 64, 128, 256, 512, 1024]) ∧
      (bad.getLsbD 1 = true ↔ ¬ (1 ≤ s.cfg.S ∧ s.cfg.S ≤ s.cfg.N)) ∧
      (bad.getLsbD 2 = true ↔ ¬ (0 ≤ s.cfg.G ∧ s.cfg.G ≤ 15)) ∧
      (bad.getLsbD 3 = true ↔ ¬ (2 ≤ s.cfg.W ∧ s.cfg.W ≤ 1024 ∧ s.cfg.W % 2 = 0)) ∧
      (bad.getLsbD 4 = true ↔ ¬ (1 ≤ s.cfg.H ∧ s.cfg.H ≤ 1024)) ∧
      (bad.getLsbD 5 = true ↔ (s.cfg.SKIP < 0 ∨ 2 * s.cfg.SKIP + s.cfg.W > s.cfg.N)) ∧
      (bad.getLsbD 6 = true ↔ ¬ (1 ≤ s.cfg.SMAX ∧ s.cfg.SMAX ≤ 32767)) ∧
      (bad.getLsbD 7 = true ↔ ¬ (1 ≤ s.cfg.RATE ∧ s.cfg.RATE ≤ 4294967295)) ∧
      bad.toNat < 256

/-- R277 and R279 with R304: a failed display call leaves only the `DispInit` event; a failed source call leaves the display events, the
tables, the clears and the `SrcConfig` event, and neither `SRC_RUNNING` nor `INIT_DONE` is set by it. -/
def Obligations.InitKeepsWritesMadeBeforeItsFault : Prop :=
  ∀ s : State, s.cfg.legal = true →
    (s.answer.dispOk = false →
      exec .init s = .next
        { s with
          fault := { cause := 2, pc := s.pc, info := 0 }, runState := .faulted,
          events := s.events ++ [.dispInit s.cfg.W s.cfg.H],
          env := { s.env with answers := s.env.answers.tail, draws := s.env.draws + 1 } }) ∧
    (s.answer.dispOk = true → s.answer.srcOk = false →
      ∃ m : Memory,
        exec .init s = .next
          { s with
            fault := { cause := 3, pc := s.pc, info := 0 }, runState := .faulted, newData := 0, drops := 0, frames := 0,
            cursor := 0, lastRow := 0, mapRes := 0, mem := m,
            events := s.events ++ [.dispInit s.cfg.W s.cfg.H, .dispClear, .srcConfig s.cfg.RATE s.cfg.S],
            env := { s.env with answers := s.env.answers.tail, draws := s.env.draws + 1 } } ∧
        (∀ i, m.read .wt i = if i < s.cfg.N.toNat then some (s.cfg.windowCoeff i) else none) ∧
        (∀ a, a ≠ ArrayId.wt → ∀ i, m.read a i = if i < s.cfg.len a then some 0 else none))

/-! ### The sliding window buffer (41_sliding_window.md) -/

/-- R141 and R142 with R143: the landing of a block of `S` samples stores it whole, sets `NEWDATA` to `S` and counts a block lost to overrun; a
block of another count faults with nothing stored. The count is the block's length, and `FAULT_INFO` its low 32 bits (log entry 9). That the
fault is raised while HALTED too, against R32's "only reset leaves", is the model's reading (log entry 10). -/
def Obligations.LandingStoresTheBlockOrFaults : Prop :=
  ∀ (s : State) (block : List Sample) (e : Env), s.nextTurn = (.land block, { s with env := e }) → s.srcRunning = true →
    s.runState ≠ .faulted →
    ((block.length : Int) = s.cfg.S →
      ∃ m : Memory,
        step s = .next
          { s with
            mem := m, newData := BitVec.ofInt 16 s.cfg.S, drops := if s.newData = 0#16 then s.drops else s.drops + 1,
            env := e } ∧
        (∀ j, m.read .cb j = block[j]?) ∧ s.mem.SameExcept .cb m) ∧
    ((block.length : Int) ≠ s.cfg.S →
      step s = .next
        { s with
          fault := { cause := 7, pc := s.pc, info := BitVec.ofNat 32 block.length }, runState := .faulted,
          env := e })

/-- R141: where the source is not running or the block is faulted, an offered block lands nowhere. That the turn then passes, used up, is
the model's reading of "no step" (log entry 2). -/
def Obligations.NoLandingWhileDisabled : Prop :=
  ∀ (s : State) (block : List Sample) (e : Env), s.nextTurn = (.land block, { s with env := e }) →
    (s.srcRunning = false ∨ s.runState = .faulted) → step s = .next { s with env := e }

/-- R144: `k` landings with no INGEST between them and none before raise `DROPS` by `k - 1`, and `CB` holds the last block. -/
def Obligations.ConsecutiveLandingsCountTheLost : Prop :=
  ∀ (s : State) (blocks : List (List Sample)) (last : List Sample), s.env.turns = (blocks ++ [last]).map .land →
    s.srcRunning = true → s.runState ≠ .faulted → s.newData = 0#16 → 1 ≤ s.cfg.S → s.cfg.S ≤ 1024 →
    (∀ b ∈ blocks ++ [last], (b.length : Int) = s.cfg.S) →
    ∃ t, Host.Core.run Sys2Proof.core (blocks.length + 1) s = .next t ∧ t.drops = s.drops + BitVec.ofNat 32 blocks.length ∧
      (∀ j, t.mem.read .cb j = last[j]?) ∧ t.newData = BitVec.ofInt 16 s.cfg.S ∧ t.pc = s.pc ∧ t.runState = s.runState

/-- R146: INGEST moves the newest `N - S` samples to the front, appends the `S` samples of `CB` with the saturating gain, clears
`NEWDATA`, advances `pc`, and changes nothing else. -/
def Obligations.IngestShiftsInTheCaptureBuffer : Prop :=
  ∀ s : State, s.initDone = true → 1 ≤ s.cfg.S → s.cfg.S ≤ s.cfg.N →
    ∃ m : Memory,
      exec .ingest s = .next { s with mem := m, newData := 0, pc := s.pc + 1 } ∧
      (∀ i, i < s.cfg.N.toNat - s.cfg.S.toNat → m.read .aw i = some (s.mem.elem .aw (i + s.cfg.S.toNat))) ∧
      (∀ j, j < s.cfg.S.toNat → ∃ x, m.read .aw (s.cfg.N.toNat - s.cfg.S.toNat + j) = some x ∧
        x.toInt = min (max ((s.mem.elem .cb j).toInt * 2 ^ s.cfg.G.toNat) (-32768)) 32767) ∧
      s.mem.SameExcept .aw m

/-- R149: after any sequence of landed and ingested blocks the window is the last `N` elements of its earlier contents followed by the
gained blocks. -/
def Obligations.WindowIsTheLastSamplesIngested : Prop :=
  ∀ (s : State) (blocks : List (List Sample)), s.initDone = true → s.srcRunning = true → s.runState ≠ .faulted →
    1 ≤ s.cfg.S → s.cfg.S ≤ s.cfg.N → (s.mem.AW.length : Int) = s.cfg.N → (∀ b ∈ blocks, (b.length : Int) = s.cfg.S) →
    ∃ t, landAndIngest blocks s = .next t ∧
      ∀ i, i < s.cfg.N.toNat →
        t.mem.read .aw i =
          ((s.mem.AW ++ (blocks.flatten.map fun x => gshift x s.cfg.G)).drop (s.cfg.S.toNat * blocks.length))[i]?

/-- R18: the gain shift is the left shift, saturated, for every sample and every legal gain. -/
def Obligations.GainShiftSaturates : Prop :=
  ∀ (x : Sample) (G : Int), 0 ≤ G → G ≤ 15 →
    (gshift x G).toInt = min (max (x.toInt * 2 ^ G.toNat) (-32768)) 32767 ∧ (0 < x.toInt → x.toInt ≤ (gshift x G).toInt)

/-! ### The spectral pipeline (42_spectral.md) -/

/-- R176: WINDOW writes the truncated Q15 product of every element, advances `pc`, and changes nothing else. -/
def Obligations.WindowMultipliesElementwise : Prop :=
  ∀ s : State, s.initDone = true →
    ∃ m : Memory,
      exec .window s = .next { s with mem := m, pc := s.pc + 1 } ∧
      (∀ i, i < s.cfg.N.toNat → ∃ x, m.read .wf i = some x ∧
        x.toInt = min (max (s.val .aw i * s.val .wt i / 32768) (-32768)) 32767) ∧
      s.mem.SameExcept .wf m

/-- R17: the Q15 product truncates toward minus infinity, and `(-32768, -32768)` is the only pair whose product saturates. -/
def Obligations.OnlyOneQ15ProductSaturates : Prop :=
  ∀ a b : Sample,
    (¬ (a.toInt = -32768 ∧ b.toInt = -32768) → (qmul a b).toInt = a.toInt * b.toInt / 32768) ∧
    (a.toInt = -32768 → b.toInt = -32768 → (qmul a b).toInt = 32767)

/-- R180: RFFT writes every bin below `N/2` as the direct DFT over the twiddle table, rounded once and saturated, advances `pc`, and
changes nothing else. -/
def Obligations.RfftIsTheScaledDirectDft : Prop :=
  ∀ (s : State) (L : Nat), s.initDone = true → s.cfg.N = 2 ^ L → 5 ≤ L → L ≤ 10 →
    ∃ m : Memory,
      exec .rfft s = .next { s with mem := m, pc := s.pc + 1 } ∧
      (∀ k, k < 2 ^ L / 2 → ∃ re im, m.read .sc (2 * k) = some re ∧ m.read .sc (2 * k + 1) = some im ∧
        re.toInt = min (max (((∑ n ∈ Finset.range (2 ^ L), s.val .wf n * (s.cfg.twiddle (k * n % 2 ^ L)).toInt) + 2 ^ (14 + L)) /
          2 ^ (15 + L)) (-32768)) 32767 ∧
        im.toInt = min (max ((-(∑ n ∈ Finset.range (2 ^ L),
          s.val .wf n * (s.cfg.twiddle ((k * n + 3 * 2 ^ L / 4) % 2 ^ L)).toInt) + 2 ^ (14 + L)) / 2 ^ (15 + L)) (-32768)) 32767) ∧
      s.mem.SameExcept .sc m

/-- R183: for every supported size, RFFT leaves bin 0 with imaginary part 0, whatever the input. -/
def Obligations.RfftBinZeroIsReal : Prop :=
  ∀ s t : State, s.initDone = true → s.cfg.N ∈ [(32 : Int), 64, 128, 256, 512, 1024] → exec .rfft s = .next t →
    t.mem.read .sc 1 = some 0

/-- R181: the accumulators stay within `N * 2^30`, so within a 42-bit signed accumulator. -/
def Obligations.RfftAccumulatorFitsFortyTwoBits : Prop :=
  ∀ (s : State) (k : Nat), s.cfg.N ∈ [(32 : Int), 64, 128, 256, 512, 1024] →
    |s.accRe k| ≤ s.cfg.N * 2 ^ 30 ∧ |s.accIm k| ≤ s.cfg.N * 2 ^ 30 ∧ s.cfg.N * 2 ^ 30 ≤ 2 ^ 40

/-- R186: CMAG writes the floor square root of `re² + im²`, saturated to 32767, for every bin, advances `pc`, and changes nothing else. -/
def Obligations.CmagIsTheFloorSquareRoot : Prop :=
  ∀ s : State, s.initDone = true →
    ∃ m : Memory,
      exec .cmag s = .next { s with mem := m, pc := s.pc + 1 } ∧
      (∀ k, k < s.cfg.N.toNat / 2 → ∃ (x : Sample) (r : Nat), m.read .ms k = some x ∧ x.toInt = min (r : Int) 32767 ∧
        (r : Int) * r ≤ s.val .sc (2 * k) * s.val .sc (2 * k) + s.val .sc (2 * k + 1) * s.val .sc (2 * k + 1) ∧
        s.val .sc (2 * k) * s.val .sc (2 * k) + s.val .sc (2 * k + 1) * s.val .sc (2 * k + 1) < ((r : Int) + 1) * (r + 1)) ∧
      s.mem.SameExcept .ms m

/-- R172: for every supported size, each entry of the twiddle table is the exact real cosine, scaled by 32768, rounded half away from
zero and saturated. -/
def Obligations.TwiddleTableIsTheExactCosine : Prop :=
  ∀ (c : Config) (m : Nat), c.N ∈ [(32 : Int), 64, 128, 256, 512, 1024] → (m : Int) < c.N →
    (c.twiddle m).toInt =
      min (max (if 0 ≤ Real.cos (2 * Real.pi * m / c.N) then ⌊32768 * Real.cos (2 * Real.pi * m / c.N) + 1 / 2⌋
        else -⌊-(32768 * Real.cos (2 * Real.pi * m / c.N)) + 1 / 2⌋) (-32768)) 32767

/-- R171: for every supported size, each window coefficient is the exact raised cosine, scaled by 32768, rounded half up (the argument is
not negative) and saturated. -/
def Obligations.WindowTableIsTheExactRaisedCosine : Prop :=
  ∀ (c : Config) (i : Nat), c.N ∈ [(32 : Int), 64, 128, 256, 512, 1024] → (i : Int) < c.N →
    (c.windowCoeff i).toInt =
      min ⌊32768 * (1 / 2 * (1 - Real.cos (2 * Real.pi * i / c.N))) + 1 / 2⌋ 32767

/-- R173: the window table starts at 0, is symmetric, lies in [0, 32767], and is 32767 at `N/2`; up to `N = 256` there alone (for
`N = 512` and `N = 1024` R171's formula gives 32767 to the neighbours of `N/2` too, log entry 20). -/
def Obligations.WindowTableIsSymmetric : Prop :=
  ∀ (c : Config) (n : Nat), c.N = n → n ∈ [32, 64, 128, 256, 512, 1024] →
    c.windowCoeff 0 = 0 ∧ (c.windowCoeff (n / 2)).toInt = 32767 ∧ ∀ i, i < n →
      c.windowCoeff i = c.windowCoeff ((n - i) % n) ∧ 0 ≤ (c.windowCoeff i).toInt ∧ (c.windowCoeff i).toInt ≤ 32767 ∧
      (n ≤ 256 → (c.windowCoeff i).toInt = 32767 → i = n / 2)

/-- R188: the magnitudes WINDOW, RFFT and CMAG leave depend on `AW` and `WT` alone, not on what the other arrays or registers held. -/
def Obligations.AnalyzeDependsOnlyOnWindowAndTable : Prop :=
  ∀ s t : State, s.cfg = t.cfg → s.initDone = true → t.initDone = true →
    (∀ i, i < s.cfg.N.toNat → s.mem.read .aw i = t.mem.read .aw i ∧ s.mem.read .wt i = t.mem.read .wt i) →
    ∃ s' t', execAll [.window, .rfft, .cmag] s = .next s' ∧ execAll [.window, .rfft, .cmag] t = .next t' ∧
      ∀ k, s'.mem.read .ms k = t'.mem.read .ms k

/-! ### The colour mapper (43_color_map.md) -/

/-- R221: the index lies in [0, 255] and is `255 * clamp(m, 0, SMAX) / SMAX` rounded half up, the dividend of the exact formula below
`2^24`. -/
def Obligations.MapIndexRoundsHalfUp : Prop :=
  ∀ (c : Config) (m : Int), 1 ≤ c.SMAX → c.SMAX ≤ 32767 →
    0 ≤ c.mapIndex m ∧ c.mapIndex m ≤ 255 ∧
    2 * c.SMAX * c.mapIndex m ≤ 510 * min (max m 0) c.SMAX + c.SMAX ∧
    510 * min (max m 0) c.SMAX + c.SMAX < 2 * c.SMAX * (c.mapIndex m + 1) ∧
    510 * min (max m 0) c.SMAX + c.SMAX < 2 ^ 24

/-- R223: the index is monotonic in the magnitude, 255 from `SMAX` on, and 0 up to 0 and below `SMAX/510`. -/
def Obligations.MapIndexIsMonotonicAndSaturates : Prop :=
  ∀ (c : Config), 1 ≤ c.SMAX → c.SMAX ≤ 32767 →
    (∀ m m', m ≤ m' → c.mapIndex m ≤ c.mapIndex m') ∧ (∀ m, c.SMAX ≤ m → c.mapIndex m = 255) ∧
    (∀ m, m ≤ 0 → c.mapIndex m = 0) ∧ ∀ m, 510 * m < c.SMAX → c.mapIndex m = 0

/-- R225: MAP writes the index and the colour of its immediate to `MAPRES`, bits 31:24 zero, advances `pc`, and changes nothing else. -/
def Obligations.MapWritesIndexAndColour : Prop :=
  ∀ (s : State) (m : Int), s.initDone = true → 1 ≤ s.cfg.SMAX → s.cfg.SMAX ≤ 32767 → -32768 ≤ m → m ≤ 32767 →
    ∃ (r : BitVec 32) (idx : Fin 256),
      exec (.map m) s = .next { s with mapRes := r, pc := s.pc + 1 } ∧
      (idx.val : Int) = (510 * min (max m 0) s.cfg.SMAX + s.cfg.SMAX) / (2 * s.cfg.SMAX) ∧
      r.toNat = 65536 * idx.val + (s.cfg.CLUT.get idx).toNat

/-! ### The compositor (44_compositor.md) -/

/-- R243: COMPOSE writes the colour of bin `SKIP + i` to the columns `W-1-2i` and `W-2-2i`, so every column, advances `pc`, and changes
nothing else. -/
def Obligations.ComposeWritesEachBinTwice : Prop :=
  ∀ s : State, s.initDone = true → 2 ≤ s.cfg.W → s.cfg.W % 2 = 0 → 0 ≤ s.cfg.SKIP →
    ∃ m : Memory,
      exec .compose s = .next { s with mem := m, pc := s.pc + 1 } ∧
      (∀ i, i < s.cfg.W.toNat / 2 →
        m.read .rb (s.cfg.W.toNat - 1 - 2 * i) = some (s.cfg.mapColour (s.val .ms (s.cfg.SKIP.toNat + i))) ∧
        m.read .rb (s.cfg.W.toNat - 2 - 2 * i) = some (s.cfg.mapColour (s.val .ms (s.cfg.SKIP.toNat + i)))) ∧
      (∀ x, s.cfg.W.toNat ≤ x → m.read .rb x = none) ∧
      s.mem.SameExcept .rb m

/-- R244: bins outside `[SKIP, SKIP + W/2)` are never read: two states that agree on those bins compose the same row. -/
def Obligations.ComposeReadsOnlyTheKeptBins : Prop :=
  ∀ s t s' t' : State, s.cfg = t.cfg → s.initDone = true → t.initDone = true → 2 ≤ s.cfg.W → s.cfg.W % 2 = 0 →
    (∀ k, s.cfg.SKIP.toNat ≤ k → k < s.cfg.SKIP.toNat + s.cfg.W.toNat / 2 → s.mem.read .ms k = t.mem.read .ms k) →
    exec .compose s = .next s' → exec .compose t = .next t' → ∀ x, s'.mem.read .rb x = t'.mem.read .rb x

/-- R247: ADVANCE emits its three events in order, records the row, advances the cursor modulo `H`, counts the row modulo 2^32, advances
`pc`, and changes nothing else, `RB` included. -/
def Obligations.AdvanceWritesTheRowAtTheCursor : Prop :=
  ∀ s : State, s.initDone = true → 1 ≤ s.cfg.H → s.cfg.H ≤ 1024 →
    ∃ (c : BitVec 16) (row : List Colour),
      exec .advance s = .next
        { s with
          events := s.events ++
            [.dispCursor 0 s.cursor.toNat, .dispWrite row (2 * s.cfg.W), .dispVScroll s.cursor.toNat],
          lastRow := s.cursor, cursor := c, frames := s.frames + 1, pc := s.pc + 1 } ∧
      (c.toNat : Int) = (s.cursor.toNat + 1) % s.cfg.H ∧
      row.length = s.cfg.W.toNat ∧ ∀ x, x < s.cfg.W.toNat → row[x]? = some (s.mem.elem .rb x)

/-- R248: `k` ADVANCEs move the cursor by `k` modulo `H`, the j-th of them writing row `cursor + j` modulo `H`, and count `k` frames. -/
def Obligations.AdvancesVisitTheRowsInTurn : Prop :=
  ∀ (s : State) (k : Nat), s.initDone = true → 1 ≤ s.cfg.H → s.cfg.H ≤ 1024 → (s.cursor.toNat : Int) < s.cfg.H →
    ∃ t, execAll (List.replicate k .advance) s = .next t ∧
      t.cursor.toNat = (s.cursor.toNat + k) % s.cfg.H.toNat ∧ t.frames = s.frames + BitVec.ofNat 32 k ∧
      t.events = s.events ++ (List.range k).flatMap fun j =>
        [.dispCursor 0 ((s.cursor.toNat + j) % s.cfg.H.toNat), .dispWrite s.row (2 * s.cfg.W),
          .dispVScroll ((s.cursor.toNat + j) % s.cfg.H.toNat)]

/-- R252, in the spec's model of the sink: after an ADVANCE, screen line 0 shows the row just written, and where the sink showed the
previous row on line 0, every older row has moved up one line. -/
def Obligations.NewestRowShowsOnScreenLineZero : Prop :=
  ∀ (s : State) (k : Sink) (clear : Colour), s.initDone = true → 0 ≤ s.cfg.W → 1 ≤ s.cfg.H → s.cfg.H ≤ 1024 →
    (s.cursor.toNat : Int) < s.cfg.H →
    (k.width : Int) = s.cfg.W → (k.height : Int) = s.cfg.H → k.fb.length = k.height →
    ∃ t k', exec .advance s = .next t ∧ k.run clear (t.events.drop s.events.length) = some k' ∧
      k'.vs = s.cursor.toNat ∧ k'.line 0 = some ((List.range s.cfg.W.toNat).map fun x => some (s.mem.elem .rb x)) ∧
      ((k.vs + 1) % k.height = s.cursor.toNat → ∀ v, 1 ≤ v → v < k.height → k'.line v = k.line (v + 1))

/-! ### Faults and reset (60_exceptions.md, 70_reset_and_hazards.md) -/

/-- R304: a step that faults records a cause of R301 and the `pc` of the faulting step, which it does not advance; but for the two
failures of INIT's external calls it has written nothing else (the environment's own lists are used up). -/
def Obligations.FaultsArePrecise : Prop :=
  ∀ s s' : State, step s = .next s' → s.runState ≠ .faulted → s'.runState = .faulted →
    s'.pc = s.pc ∧ s'.fault.pc = s.pc ∧ 1 ≤ s'.fault.cause.toNat ∧ s'.fault.cause.toNat ≤ 7 ∧
    (s'.fault.cause ≠ 2#8 → s'.fault.cause ≠ 3#8 →
      s' = { s with fault := s'.fault, runState := .faulted, env := s'.env })

/-- R305 and R306: while FAULTED, no turn but reset, listed or drawn, changes anything of the block; the first fault's record stays. That
such a turn passes is the model's choice (log entry 2). -/
def Obligations.FaultedBlockIsFrozen : Prop :=
  ∀ (s : State) (t : Turn) (e : Env), s.runState = .faulted → t ≠ .reset → s.nextTurn = (t, { s with env := e }) →
    step s = .next { s with env := e }

/-- R302: past INIT, the data commands raise no fault: no arithmetic, no overrun, no mapping and no display write faults. -/
def Obligations.DataCommandsNeverFault : Prop :=
  ∀ (s t : State) (i : Instr), s.initDone = true → (i ∈ [Instr.waitdata, .ingest, .window, .rfft, .cmag, .compose, .advance] ∨ ∃ m, i = .map m) →
    exec i s = .next t → t.runState = s.runState ∧ t.fault = s.fault

/-- R340 with R62: reset in any state puts every piece of state to its reset value and leaves the configuration. That the
environment's remaining turns and answers go on is the model's choice (log entry 15). -/
def Obligations.ResetRestoresTheResetState : Prop :=
  ∀ (s : State) (e : Env), s.nextTurn = (.reset, { s with env := e }) →
    ∃ t, step s = .next t ∧ t.cfg = s.cfg ∧ t.pc = 0 ∧ t.runState = .running ∧ t.initDone = false ∧ t.srcRunning = false ∧
      t.fault.cause = 0#8 ∧ t.fault.pc = 0 ∧ t.fault.info = 0 ∧ t.newData = 0#16 ∧ t.drops = 0 ∧ t.frames = 0 ∧ t.cursor = 0 ∧
      t.lastRow = 0 ∧ t.mapRes = 0 ∧ (∀ a i, t.mem.read a i = none) ∧ t.events = [] ∧
      t.env = e

/-- R32, R33 and R34: only reset leaves FAULTED, no step of the block takes HALTED back to RUNNING, and only reset clears `INIT_DONE` and
`SRC_RUNNING`. That a landing may take HALTED to FAULTED is the model's reading (log entry 10). -/
def Obligations.OnlyResetLeavesTheStoppedStates : Prop :=
  ∀ s s' : State, step s = .next s' → s.NoReset →
    (s.runState = .faulted → s'.runState = .faulted) ∧ (s.runState = .halted → s'.runState ≠ .running) ∧
    (s.initDone = true → s'.initDone = true) ∧ (s.srcRunning = true → s'.srcRunning = true)

/-! ### The whole machine (10_state.md) -/

/-- R5 with R51: no step changes the configuration, the colour table or the program. -/
def Obligations.NoStepChangesTheConfiguration : Prop := ∀ s s' : State, step s = .next s' → s'.cfg = s.cfg

/-- R61, the commands' columns: what a command does not write in the access matrix, it leaves alone. The events a command leaves are those
before it with its own after them. -/
def Obligations.CommandsWriteOnlyTheirColumn : Prop :=
  ∀ (i : Instr) (s t : State), exec i s = .next t →
    t.cfg = s.cfg ∧
    (i ≠ .init → t.initDone = s.initDone ∧ t.srcRunning = s.srcRunning ∧ t.drops = s.drops ∧ t.env = s.env ∧
      (∀ k, t.mem.read .wt k = s.mem.read .wt k) ∧ (∀ k, t.mem.read .cb k = s.mem.read .cb k)) ∧
    (i ∉ [Instr.init, .ingest] → t.newData = s.newData ∧ ∀ k, t.mem.read .aw k = s.mem.read .aw k) ∧
    (i ∉ [Instr.init, .window] → ∀ k, t.mem.read .wf k = s.mem.read .wf k) ∧
    (i ∉ [Instr.init, .rfft] → ∀ k, t.mem.read .sc k = s.mem.read .sc k) ∧
    (i ∉ [Instr.init, .cmag] → ∀ k, t.mem.read .ms k = s.mem.read .ms k) ∧
    (i ∉ [Instr.init, .compose] → ∀ k, t.mem.read .rb k = s.mem.read .rb k) ∧
    (i ≠ .init → (∀ m, i ≠ .map m) → t.mapRes = s.mapRes) ∧
    (i ∉ [Instr.init, .advance] → t.cursor = s.cursor ∧ t.lastRow = s.lastRow ∧ t.frames = s.frames ∧ t.events = s.events) ∧
    (∃ es, t.events = s.events ++ es) ∧
    (t.fault ≠ s.fault → t.runState = .faulted) ∧
    (i ≠ .halt → t.runState ≠ s.runState → t.runState = .faulted)

/-- Every step keeps the block's invariant, which holds what R67 lists of an initialised block: `NEWDATA` 0 or `S`, the cursor and last
row below `H`, magnitudes in [0, 32767], the window table as R171 has it, `SC[1] = 0`, `MAPRES[31:24] = 0`. -/
def Obligations.EveryStepKeepsTheInvariant : Prop := ∀ s s' : State, s.Inv → step s = .next s' → s'.Inv

/-- The invariant holds right after reset, in every configuration and environment. -/
def Obligations.InvariantHoldsAfterReset : Prop := ∀ (c : Config) (e : Env), (State.resetOf c e).Inv

/-- Every step keeps the canonical form of the data arrays: each array is unspecified as a whole or written as a whole. -/
def Obligations.EveryStepKeepsTheMemoryForm : Prop := ∀ s s' : State, s.MemoryForm → step s = .next s' → s'.MemoryForm

/-- R62 and R63: in every configuration and environment, no array element has a value right after reset, and the model's canonical form
(log entries 5 and 19) holds. -/
def Obligations.MemoryFormHoldsAfterReset : Prop :=
  ∀ (c : Config) (e : Env),
    (State.resetOf c e).MemoryForm ∧ ∀ (a : ArrayId) (i : Nat), (State.resetOf c e).mem.read a i = none

/-! ### The host readback port (20_memory.md) -/

/-- R64: the fields of STATUS, its reserved bits 0, and STATUS 0 at reset. -/
def Obligations.StatusHasTheFieldsOfTheState : Prop :=
  (∀ (c : Config) (e : Env), (State.resetOf c e).status = 0#32) ∧
  ∀ s : State,
    s.status.getLsbD 0 = s.initDone ∧ (s.status.getLsbD 1 = true ↔ s.runState = .halted) ∧
    (s.status.getLsbD 2 = true ↔ s.runState = .faulted) ∧
    (s.status.getLsbD 3 = true ↔ s.runState = .running ∧ s.initDone = true ∧
      s.cfg.PROG[s.pc.toNat]? = some 0x02000000#32 ∧ s.newData = 0#16) ∧
    s.status.getLsbD 4 = s.srcRunning ∧ s.status.extractLsb' 5 3 = 0 ∧ s.status.extractLsb' 8 8 = s.fault.cause ∧
    s.status.extractLsb' 16 16 = 0

/-- R85: a read that is narrow, misaligned or of an unmapped address answers BUSERR, and so does every write, with the state as it was;
R83's registers answer OK with R65's words. Where a parameter is negative or does not fit 32 bits, its low 32 bits in two's complement are
the model's choice, as are those of `P` (log entries 12 and 13). -/
def Obligations.HostReadsMappedAlignedWordsOnly : Prop :=
  ∀ (s : State) (draw : Nat) (addr : BitVec 16) (size : Nat),
    (∀ data, s.memWrite addr size data = (.busErr, s)) ∧
    (size ≠ 4 → s.memRead draw addr size = .busErr) ∧ (addr.toNat % 4 ≠ 0 → s.memRead draw addr size = .busErr) ∧
    ((0x28 ≤ addr.toNat ∧ addr.toNat ≤ 0x3F) ∨ (0x68 ≤ addr.toNat ∧ addr.toNat ≤ 0xFFF) ∨ 0xB000 ≤ addr.toNat →
      s.memRead draw addr size = .busErr) ∧
    s.memRead draw 0x0000 4 = .ok s.status ∧ s.memRead draw 0x0004 4 = .ok (s.pc.setWidth 32) ∧
    s.memRead draw 0x0008 4 = .ok (s.fault.pc.setWidth 32) ∧ s.memRead draw 0x000C 4 = .ok s.fault.info ∧
    s.memRead draw 0x0010 4 = .ok (s.newData.setWidth 32) ∧ s.memRead draw 0x0014 4 = .ok s.drops ∧
    s.memRead draw 0x0018 4 = .ok s.frames ∧ s.memRead draw 0x001C 4 = .ok (s.cursor.setWidth 32) ∧
    s.memRead draw 0x0020 4 = .ok (s.lastRow.setWidth 32) ∧ s.memRead draw 0x0024 4 = .ok s.mapRes ∧
    s.memRead draw 0x0040 4 = .ok (BitVec.ofInt 32 s.cfg.N) ∧ s.memRead draw 0x0044 4 = .ok (BitVec.ofInt 32 s.cfg.S) ∧
    s.memRead draw 0x0048 4 = .ok (BitVec.ofInt 32 s.cfg.G) ∧ s.memRead draw 0x004C 4 = .ok (BitVec.ofInt 32 s.cfg.SKIP) ∧
    s.memRead draw 0x0050 4 = .ok (BitVec.ofInt 32 s.cfg.SMAX) ∧ s.memRead draw 0x0054 4 = .ok (BitVec.ofInt 32 s.cfg.W) ∧
    s.memRead draw 0x0058 4 = .ok (BitVec.ofInt 32 s.cfg.H) ∧
    s.memRead draw 0x005C 4 = .ok (BitVec.ofNat 32 s.cfg.PROG.length) ∧
    s.memRead draw 0x0060 4 = .ok (BitVec.ofInt 32 s.cfg.RATE) ∧ s.memRead draw 0x0064 4 = .ok 16#32

/-- R84 with R87: in a legal configuration, element `i` of the array at window `base` reads as its value, sign-extended (zero-extended
for `RB`), where it has one; an element with no value (R63) reads as some word of the same form; past the array's length the window
answers BUSERR. -/
def Obligations.HostReadsArrayElements : Prop :=
  ∀ (s : State) (draw i base : Nat) (a : ArrayId), s.cfg.legal = true → i < 1024 →
    (base, a) ∈ [(0x1000, ArrayId.aw), (0x2000, .wt), (0x3000, .wf), (0x4000, .sc), (0x5000, .ms), (0x6000, .cb), (0x7000, .rb)] →
    (∀ x, i < s.cfg.len a → s.mem.read a i = some x →
      s.memRead draw (BitVec.ofNat 16 (base + 4 * i)) 4 =
        .ok (if a = .rb then BitVec.ofNat 32 x.toNat else BitVec.ofInt 32 x.toInt)) ∧
    (i < s.cfg.len a → s.mem.read a i = none → ∃ x : Sample,
      s.memRead draw (BitVec.ofNat 16 (base + 4 * i)) 4 =
        .ok (if a = .rb then BitVec.ofNat 32 x.toNat else BitVec.ofInt 32 x.toInt)) ∧
    (s.cfg.len a ≤ i → s.memRead draw (BitVec.ofNat 16 (base + 4 * i)) 4 = .busErr)

/-- R84 with R87: the constant memories `CLUT`, `TW` and `PROG` in their windows, mapped only below their lengths. -/
def Obligations.HostReadsConstantMemories : Prop :=
  ∀ (s : State) (draw i : Nat), s.cfg.legal = true → i < 1024 →
    (∀ h : i < 256, s.memRead draw (BitVec.ofNat 16 (0x8000 + 4 * i)) 4 =
      .ok (BitVec.ofNat 32 (s.cfg.CLUT.get ⟨i, h⟩).toNat)) ∧
    (256 ≤ i → s.memRead draw (BitVec.ofNat 16 (0x8000 + 4 * i)) 4 = .busErr) ∧
    ((i : Int) < s.cfg.N → s.memRead draw (BitVec.ofNat 16 (0x9000 + 4 * i)) 4 =
      .ok (BitVec.ofInt 32 (s.cfg.twiddle i).toInt)) ∧
    (s.cfg.N ≤ i → s.memRead draw (BitVec.ofNat 16 (0x9000 + 4 * i)) 4 = .busErr) ∧
    (∀ w, s.cfg.PROG[i]? = some w → s.memRead draw (BitVec.ofNat 16 (0xA000 + 4 * i)) 4 = .ok w) ∧
    (s.cfg.PROG[i]? = none → s.memRead draw (BitVec.ofNat 16 (0xA000 + 4 * i)) 4 = .busErr)

/-! ### The environment's choices (00_scope.md R7, 20_memory.md R95) -/

/-- The next turn is the first one the environment has listed, and past its list a free draw, numbered by the count of draws; either way
nothing but the environment's own side changes (log entry 1). -/
def Obligations.NextTurnIsListedOrDrawn : Prop :=
  ∀ s : State,
    (∀ t ts, s.env.turns = t :: ts → s.nextTurn = (t, { s with env := { s.env with turns := ts } })) ∧
    (s.env.turns = [] →
      s.nextTurn =
        (Config.freeTurn s.env.turnDraws, { s with env := { s.env with turnDraws := s.env.turnDraws + 1 } }))

/-- R95: any order of turns is a run. Whatever turns are listed, the run of so many steps takes them one after another, each on the state
the one before it left. -/
def Obligations.EveryFiniteOrderOfTurnsIsARun : Prop :=
  ∀ (ts later : List Turn) (s : State), s.env.turns = ts ++ later →
    ∃ t, Host.Core.run Sys2Proof.core ts.length s = .next t ∧ takeAll ts { s with env := { s.env with turns := [] } } =
      .next { t with env := { t.env with turns := [] } } ∧ t.env.turns = later
end

