-- ==== Sys2Proof/Laws/Arith.lean ====
section
/-! SUPPORT. The arithmetic primitives: the range and the value of a saturated result, the defining property of the square root. -/

namespace Sys2Proof.Machine

theorem clamp_le (x : Int) {lo hi : Int} : clamp x lo hi ≤ hi := min_le_right _ _

theorem le_clamp (x : Int) {lo hi : Int} (h : lo ≤ hi) : lo ≤ clamp x lo hi := le_min (le_max_right _ _) h

theorem clamp_of_mem {x lo hi : Int} (h₁ : lo ≤ x) (h₂ : x ≤ hi) : clamp x lo hi = x := by
  unfold clamp
  omega

/-- The value of a saturated result (R12). -/
theorem sat16_toInt (v : Int) : (sat16 v).toInt = clamp v (-32768) 32767 := by
  have h₁ := clamp_le v (lo := -32768) (hi := 32767)
  have h₂ := le_clamp v (lo := -32768) (hi := 32767) (by decide)
  rw [sat16, BitVec.toInt_ofInt, Int.bmod_def]
  omega

theorem isqrtBits_spec (k v : Nat) (h : v < 4 ^ k) :
    isqrtBits k v * isqrtBits k v ≤ v ∧ v < (isqrtBits k v + 1) * (isqrtBits k v + 1) := by
  induction k generalizing v with
  | zero => simp [isqrtBits] at h ⊢; omega
  | succ k ih =>
    have hv : v / 4 < 4 ^ k := by rw [Nat.div_lt_iff_lt_mul (by decide)]; rw [pow_succ] at h; omega
    obtain ⟨h₁, h₂⟩ := ih (v / 4) hv
    generalize hr : isqrtBits k (v / 4) = r at h₁ h₂
    simp only [isqrtBits, hr]
    have e₁ : 2 * r * (2 * r) = 4 * (r * r) := by ring
    have e₂ : (2 * r + 1 + 1) * (2 * r + 1 + 1) = 4 * ((r + 1) * (r + 1)) := by ring
    split
    · exact ⟨by assumption, by omega⟩
    · exact ⟨by omega, by omega⟩

/-- `isqrt(v)` is the largest `r` with `r * r ≤ v` (R16). -/
theorem isqrt_spec (v : Nat) : isqrt v * isqrt v ≤ v ∧ v < (isqrt v + 1) * (isqrt v + 1) := by
  apply isqrtBits_spec
  have h : v < 2 ^ (v.log2 + 1) := Nat.lt_log2_self
  refine lt_of_lt_of_le h ?_
  rw [show (4 : Nat) = 2 ^ 2 from rfl, ← pow_mul]
  exact Nat.pow_le_pow_right (by decide) (by omega)

end Sys2Proof.Machine
end

