-- ==== Sys2Proof/Laws/Decode.lean ====
section
/-! SUPPORT. The decoder, said once: no two rows of the opcode map cover one word (30_encoding.md R113), so a word decodes to the command
of the row that covers it. -/

namespace Sys2Proof

/-- Two rows differ in a bit both masks look at. -/
def OpRow.apart (r r' : OpRow) : Bool := r.mask &&& r'.mask &&& (r.matchBits ^^^ r'.matchBits) != 0#32

theorem opcodeTable_pairwise_apart : ∀ r ∈ opcodeTable, ∀ r' ∈ opcodeTable, r = r' ∨ r.apart r' = true := by decide

/-- Rows that are apart cover no word in common. -/
theorem OpRow.not_covers_of_apart {r r' : OpRow} {w : Word} (h : r.apart r' = true) (hr : r.covers w = true)
    (hr' : r'.covers w = true) : False := by
  simp only [OpRow.apart, bne_iff_ne, OpRow.covers, beq_iff_eq] at h hr hr'
  apply h
  rw [← hr, ← hr']
  ext j hj
  simp
  cases w[j] <;> cases r.mask[j] <;> cases r'.mask[j] <;> simp

theorem row_unique {r r' : OpRow} {w : Word} (hm : r ∈ opcodeTable) (hm' : r' ∈ opcodeTable) (h : r.covers w = true)
    (h' : r'.covers w = true) : r = r' :=
  (opcodeTable_pairwise_apart r hm r' hm').resolve_right fun ha => OpRow.not_covers_of_apart ha h h'

/-- A word is a command exactly when some row covers it, and it is that row's command (R114). -/
theorem decode_eq_command_iff {w : Word} {i : Instr} :
    decode w = .command i ↔ ∃ r ∈ opcodeTable, r.covers w = true ∧ i = r.command w := by
  unfold decode
  split
  · next r hf =>
    have hc := List.find?_some hf
    have hm := List.mem_of_find?_eq_some hf
    constructor
    · intro h
      exact ⟨r, hm, hc, (Decoded.command.inj h).symm⟩
    · rintro ⟨r', hm', hc', rfl⟩
      rw [row_unique hm hm' hc hc']
  · next hf =>
    rw [List.find?_eq_none] at hf
    constructor
    · intro h
      cases h
    · rintro ⟨r, hm, hc, _⟩
      exact absurd hc (hf r hm)

/-- A word is illegal exactly when no row covers it (R115). -/
theorem decode_illegal_iff {w : Word} : (∃ why, decode w = .illegal why) ↔ ∀ r ∈ opcodeTable, r.covers w = false := by
  unfold decode
  split
  · next r hf =>
    constructor
    · rintro ⟨why, h⟩
      cases h
    · intro h
      have := List.find?_some hf
      rw [h r (List.mem_of_find?_eq_some hf)] at this
      cases this
  · next hf => simpa using hf

end Sys2Proof
end

