-- ==== Sys2Proof/Laws/State.lean ====
section
/-! SUPPORT. One lemma per field per update of the state, true by rfl, so that no later proof unfolds a record update. -/

namespace Sys2Proof.Machine

/-! ### nextPc -/

@[simp] theorem State.nextPc_cfg (s : State) : (s.nextPc).cfg = s.cfg := rfl
@[simp] theorem State.nextPc_pc (s : State) : (s.nextPc).pc = s.pc + 1 := rfl
@[simp] theorem State.nextPc_runState (s : State) : (s.nextPc).runState = s.runState := rfl
@[simp] theorem State.nextPc_initDone (s : State) : (s.nextPc).initDone = s.initDone := rfl
@[simp] theorem State.nextPc_srcRunning (s : State) : (s.nextPc).srcRunning = s.srcRunning := rfl
@[simp] theorem State.nextPc_fault (s : State) : (s.nextPc).fault = s.fault := rfl
@[simp] theorem State.nextPc_newData (s : State) : (s.nextPc).newData = s.newData := rfl
@[simp] theorem State.nextPc_drops (s : State) : (s.nextPc).drops = s.drops := rfl
@[simp] theorem State.nextPc_frames (s : State) : (s.nextPc).frames = s.frames := rfl
@[simp] theorem State.nextPc_cursor (s : State) : (s.nextPc).cursor = s.cursor := rfl
@[simp] theorem State.nextPc_lastRow (s : State) : (s.nextPc).lastRow = s.lastRow := rfl
@[simp] theorem State.nextPc_mapRes (s : State) : (s.nextPc).mapRes = s.mapRes := rfl
@[simp] theorem State.nextPc_mem (s : State) : (s.nextPc).mem = s.mem := rfl
@[simp] theorem State.nextPc_events (s : State) : (s.nextPc).events = s.events := rfl
@[simp] theorem State.nextPc_env (s : State) : (s.nextPc).env = s.env := rfl

/-! ### emit -/

@[simp] theorem State.emit_cfg (s : State) (es : List Event) : (s.emit es).cfg = s.cfg := rfl
@[simp] theorem State.emit_pc (s : State) (es : List Event) : (s.emit es).pc = s.pc := rfl
@[simp] theorem State.emit_runState (s : State) (es : List Event) : (s.emit es).runState = s.runState := rfl
@[simp] theorem State.emit_initDone (s : State) (es : List Event) : (s.emit es).initDone = s.initDone := rfl
@[simp] theorem State.emit_srcRunning (s : State) (es : List Event) : (s.emit es).srcRunning = s.srcRunning := rfl
@[simp] theorem State.emit_fault (s : State) (es : List Event) : (s.emit es).fault = s.fault := rfl
@[simp] theorem State.emit_newData (s : State) (es : List Event) : (s.emit es).newData = s.newData := rfl
@[simp] theorem State.emit_drops (s : State) (es : List Event) : (s.emit es).drops = s.drops := rfl
@[simp] theorem State.emit_frames (s : State) (es : List Event) : (s.emit es).frames = s.frames := rfl
@[simp] theorem State.emit_cursor (s : State) (es : List Event) : (s.emit es).cursor = s.cursor := rfl
@[simp] theorem State.emit_lastRow (s : State) (es : List Event) : (s.emit es).lastRow = s.lastRow := rfl
@[simp] theorem State.emit_mapRes (s : State) (es : List Event) : (s.emit es).mapRes = s.mapRes := rfl
@[simp] theorem State.emit_mem (s : State) (es : List Event) : (s.emit es).mem = s.mem := rfl
@[simp] theorem State.emit_events (s : State) (es : List Event) : (s.emit es).events = s.events ++ es := rfl
@[simp] theorem State.emit_env (s : State) (es : List Event) : (s.emit es).env = s.env := rfl

/-! ### raise -/

@[simp] theorem State.raise_cfg (s : State) (c : Cause) (info : Word) : (s.raise c info).cfg = s.cfg := rfl
@[simp] theorem State.raise_pc (s : State) (c : Cause) (info : Word) : (s.raise c info).pc = s.pc := rfl
@[simp] theorem State.raise_runState (s : State) (c : Cause) (info : Word) : (s.raise c info).runState = .faulted := rfl
@[simp] theorem State.raise_initDone (s : State) (c : Cause) (info : Word) : (s.raise c info).initDone = s.initDone := rfl
@[simp] theorem State.raise_srcRunning (s : State) (c : Cause) (info : Word) : (s.raise c info).srcRunning = s.srcRunning := rfl
@[simp] theorem State.raise_fault (s : State) (c : Cause) (info : Word) : (s.raise c info).fault = { cause := c.code, pc := s.pc, info := info } := rfl
@[simp] theorem State.raise_newData (s : State) (c : Cause) (info : Word) : (s.raise c info).newData = s.newData := rfl
@[simp] theorem State.raise_drops (s : State) (c : Cause) (info : Word) : (s.raise c info).drops = s.drops := rfl
@[simp] theorem State.raise_frames (s : State) (c : Cause) (info : Word) : (s.raise c info).frames = s.frames := rfl
@[simp] theorem State.raise_cursor (s : State) (c : Cause) (info : Word) : (s.raise c info).cursor = s.cursor := rfl
@[simp] theorem State.raise_lastRow (s : State) (c : Cause) (info : Word) : (s.raise c info).lastRow = s.lastRow := rfl
@[simp] theorem State.raise_mapRes (s : State) (c : Cause) (info : Word) : (s.raise c info).mapRes = s.mapRes := rfl
@[simp] theorem State.raise_mem (s : State) (c : Cause) (info : Word) : (s.raise c info).mem = s.mem := rfl
@[simp] theorem State.raise_events (s : State) (c : Cause) (info : Word) : (s.raise c info).events = s.events := rfl
@[simp] theorem State.raise_env (s : State) (c : Cause) (info : Word) : (s.raise c info).env = s.env := rfl

/-! ### fill -/

@[simp] theorem State.fill_cfg (s : State) (a : ArrayId) (f : Nat → Sample) : (s.fill a f).cfg = s.cfg := rfl
@[simp] theorem State.fill_pc (s : State) (a : ArrayId) (f : Nat → Sample) : (s.fill a f).pc = s.pc := rfl
@[simp] theorem State.fill_runState (s : State) (a : ArrayId) (f : Nat → Sample) : (s.fill a f).runState = s.runState := rfl
@[simp] theorem State.fill_initDone (s : State) (a : ArrayId) (f : Nat → Sample) : (s.fill a f).initDone = s.initDone := rfl
@[simp] theorem State.fill_srcRunning (s : State) (a : ArrayId) (f : Nat → Sample) : (s.fill a f).srcRunning = s.srcRunning := rfl
@[simp] theorem State.fill_fault (s : State) (a : ArrayId) (f : Nat → Sample) : (s.fill a f).fault = s.fault := rfl
@[simp] theorem State.fill_newData (s : State) (a : ArrayId) (f : Nat → Sample) : (s.fill a f).newData = s.newData := rfl
@[simp] theorem State.fill_drops (s : State) (a : ArrayId) (f : Nat → Sample) : (s.fill a f).drops = s.drops := rfl
@[simp] theorem State.fill_frames (s : State) (a : ArrayId) (f : Nat → Sample) : (s.fill a f).frames = s.frames := rfl
@[simp] theorem State.fill_cursor (s : State) (a : ArrayId) (f : Nat → Sample) : (s.fill a f).cursor = s.cursor := rfl
@[simp] theorem State.fill_lastRow (s : State) (a : ArrayId) (f : Nat → Sample) : (s.fill a f).lastRow = s.lastRow := rfl
@[simp] theorem State.fill_mapRes (s : State) (a : ArrayId) (f : Nat → Sample) : (s.fill a f).mapRes = s.mapRes := rfl
@[simp] theorem State.fill_mem (s : State) (a : ArrayId) (f : Nat → Sample) : (s.fill a f).mem = s.mem.fill a (s.cfg.len a) f := rfl
@[simp] theorem State.fill_events (s : State) (a : ArrayId) (f : Nat → Sample) : (s.fill a f).events = s.events := rfl
@[simp] theorem State.fill_env (s : State) (a : ArrayId) (f : Nat → Sample) : (s.fill a f).env = s.env := rfl

/-! ### withEnv -/

@[simp] theorem State.withEnv_cfg (s : State) (e : Env) : (s.withEnv e).cfg = s.cfg := rfl
@[simp] theorem State.withEnv_pc (s : State) (e : Env) : (s.withEnv e).pc = s.pc := rfl
@[simp] theorem State.withEnv_runState (s : State) (e : Env) : (s.withEnv e).runState = s.runState := rfl
@[simp] theorem State.withEnv_initDone (s : State) (e : Env) : (s.withEnv e).initDone = s.initDone := rfl
@[simp] theorem State.withEnv_srcRunning (s : State) (e : Env) : (s.withEnv e).srcRunning = s.srcRunning := rfl
@[simp] theorem State.withEnv_fault (s : State) (e : Env) : (s.withEnv e).fault = s.fault := rfl
@[simp] theorem State.withEnv_newData (s : State) (e : Env) : (s.withEnv e).newData = s.newData := rfl
@[simp] theorem State.withEnv_drops (s : State) (e : Env) : (s.withEnv e).drops = s.drops := rfl
@[simp] theorem State.withEnv_frames (s : State) (e : Env) : (s.withEnv e).frames = s.frames := rfl
@[simp] theorem State.withEnv_cursor (s : State) (e : Env) : (s.withEnv e).cursor = s.cursor := rfl
@[simp] theorem State.withEnv_lastRow (s : State) (e : Env) : (s.withEnv e).lastRow = s.lastRow := rfl
@[simp] theorem State.withEnv_mapRes (s : State) (e : Env) : (s.withEnv e).mapRes = s.mapRes := rfl
@[simp] theorem State.withEnv_mem (s : State) (e : Env) : (s.withEnv e).mem = s.mem := rfl
@[simp] theorem State.withEnv_events (s : State) (e : Env) : (s.withEnv e).events = s.events := rfl
@[simp] theorem State.withEnv_env (s : State) (e : Env) : (s.withEnv e).env = e := rfl

/-! ### useAnswer -/

@[simp] theorem State.useAnswer_cfg (s : State) : (s.useAnswer).cfg = s.cfg := rfl
@[simp] theorem State.useAnswer_pc (s : State) : (s.useAnswer).pc = s.pc := rfl
@[simp] theorem State.useAnswer_runState (s : State) : (s.useAnswer).runState = s.runState := rfl
@[simp] theorem State.useAnswer_initDone (s : State) : (s.useAnswer).initDone = s.initDone := rfl
@[simp] theorem State.useAnswer_srcRunning (s : State) : (s.useAnswer).srcRunning = s.srcRunning := rfl
@[simp] theorem State.useAnswer_fault (s : State) : (s.useAnswer).fault = s.fault := rfl
@[simp] theorem State.useAnswer_newData (s : State) : (s.useAnswer).newData = s.newData := rfl
@[simp] theorem State.useAnswer_drops (s : State) : (s.useAnswer).drops = s.drops := rfl
@[simp] theorem State.useAnswer_frames (s : State) : (s.useAnswer).frames = s.frames := rfl
@[simp] theorem State.useAnswer_cursor (s : State) : (s.useAnswer).cursor = s.cursor := rfl
@[simp] theorem State.useAnswer_lastRow (s : State) : (s.useAnswer).lastRow = s.lastRow := rfl
@[simp] theorem State.useAnswer_mapRes (s : State) : (s.useAnswer).mapRes = s.mapRes := rfl
@[simp] theorem State.useAnswer_mem (s : State) : (s.useAnswer).mem = s.mem := rfl
@[simp] theorem State.useAnswer_events (s : State) : (s.useAnswer).events = s.events := rfl
@[simp] theorem State.useAnswer_env (s : State) : (s.useAnswer).env = { s.env with answers := s.env.answers.tail, draws := s.env.draws + 1 } := rfl

/-! ### cleared -/

@[simp] theorem State.cleared_cfg (s : State) : s.cleared.cfg = s.cfg := rfl
@[simp] theorem State.cleared_pc (s : State) : s.cleared.pc = s.pc := rfl
@[simp] theorem State.cleared_runState (s : State) : s.cleared.runState = s.runState := rfl
@[simp] theorem State.cleared_initDone (s : State) : s.cleared.initDone = s.initDone := rfl
@[simp] theorem State.cleared_srcRunning (s : State) : s.cleared.srcRunning = s.srcRunning := rfl
@[simp] theorem State.cleared_fault (s : State) : s.cleared.fault = s.fault := rfl
@[simp] theorem State.cleared_newData (s : State) : s.cleared.newData = 0 := rfl
@[simp] theorem State.cleared_drops (s : State) : s.cleared.drops = 0 := rfl
@[simp] theorem State.cleared_frames (s : State) : s.cleared.frames = 0 := rfl
@[simp] theorem State.cleared_cursor (s : State) : s.cleared.cursor = 0 := rfl
@[simp] theorem State.cleared_lastRow (s : State) : s.cleared.lastRow = 0 := rfl
@[simp] theorem State.cleared_mapRes (s : State) : s.cleared.mapRes = 0 := rfl
@[simp] theorem State.cleared_mem (s : State) : s.cleared.mem = initialMemory s.cfg := rfl
@[simp] theorem State.cleared_events (s : State) : s.cleared.events = s.events := rfl
@[simp] theorem State.cleared_env (s : State) : s.cleared.env = s.env := rfl

/-! ### started -/

@[simp] theorem State.started_cfg (s : State) : s.started.cfg = s.cfg := rfl
@[simp] theorem State.started_pc (s : State) : s.started.pc = s.pc + 1 := rfl
@[simp] theorem State.started_runState (s : State) : s.started.runState = s.runState := rfl
@[simp] theorem State.started_initDone (s : State) : s.started.initDone = true := rfl
@[simp] theorem State.started_srcRunning (s : State) : s.started.srcRunning = true := rfl
@[simp] theorem State.started_fault (s : State) : s.started.fault = s.fault := rfl
@[simp] theorem State.started_newData (s : State) : s.started.newData = s.newData := rfl
@[simp] theorem State.started_drops (s : State) : s.started.drops = s.drops := rfl
@[simp] theorem State.started_frames (s : State) : s.started.frames = s.frames := rfl
@[simp] theorem State.started_cursor (s : State) : s.started.cursor = s.cursor := rfl
@[simp] theorem State.started_lastRow (s : State) : s.started.lastRow = s.lastRow := rfl
@[simp] theorem State.started_mapRes (s : State) : s.started.mapRes = s.mapRes := rfl
@[simp] theorem State.started_mem (s : State) : s.started.mem = s.mem := rfl
@[simp] theorem State.started_events (s : State) : s.started.events = s.events := rfl
@[simp] theorem State.started_env (s : State) : s.started.env = s.env := rfl

/-! ### hardReset: the values of R62, the configuration and the environment kept -/

@[simp] theorem State.hardReset_cfg (s : State) : s.hardReset.cfg = s.cfg := rfl
@[simp] theorem State.hardReset_pc (s : State) : s.hardReset.pc = 0 := rfl
@[simp] theorem State.hardReset_runState (s : State) : s.hardReset.runState = .running := rfl
@[simp] theorem State.hardReset_initDone (s : State) : s.hardReset.initDone = false := rfl
@[simp] theorem State.hardReset_srcRunning (s : State) : s.hardReset.srcRunning = false := rfl
@[simp] theorem State.hardReset_fault (s : State) : s.hardReset.fault = { cause := 0, pc := 0, info := 0 } := rfl
@[simp] theorem State.hardReset_newData (s : State) : s.hardReset.newData = 0 := rfl
@[simp] theorem State.hardReset_drops (s : State) : s.hardReset.drops = 0 := rfl
@[simp] theorem State.hardReset_frames (s : State) : s.hardReset.frames = 0 := rfl
@[simp] theorem State.hardReset_cursor (s : State) : s.hardReset.cursor = 0 := rfl
@[simp] theorem State.hardReset_lastRow (s : State) : s.hardReset.lastRow = 0 := rfl
@[simp] theorem State.hardReset_mapRes (s : State) : s.hardReset.mapRes = 0 := rfl
@[simp] theorem State.hardReset_mem (s : State) : s.hardReset.mem = Memory.unspecified := rfl
@[simp] theorem State.hardReset_events (s : State) : s.hardReset.events = [] := rfl
@[simp] theorem State.hardReset_env (s : State) : s.hardReset.env = s.env := rfl

end Sys2Proof.Machine
end

