-- ==== Sys2Proof/Laws/Memory.lean ====
section
/-! SUPPORT. The data arrays: reading after writing, and the canonical form. -/

namespace Sys2Proof.Machine

variable (m : Memory) (a b : ArrayId) (n i : Nat) (f : Nat → Sample)

@[simp] theorem Memory.cells_setCells_same (xs : List Sample) : (m.setCells a xs).cells a = xs := by
  cases a <;> rfl

theorem Memory.cells_setCells_other {a b : ArrayId} (h : b ≠ a) (xs : List Sample) :
    (m.setCells a xs).cells b = m.cells b := by
  cases a <;> cases b <;> first | rfl | exact absurd rfl h

@[simp] theorem Memory.cells_fill_same : (m.fill a n f).cells a = (List.range n).map f :=
  Memory.cells_setCells_same _ _ _

theorem Memory.cells_fill_other {a b : ArrayId} (h : b ≠ a) : (m.fill a n f).cells b = m.cells b :=
  Memory.cells_setCells_other _ h _

/-- Everything a `fill` does to the array it fills. -/
theorem Memory.read_fill_same : (m.fill a n f).read a i = if i < n then some (f i) else none := by
  unfold Memory.read
  rw [Memory.cells_fill_same]
  split
  · next h => simp [h]
  · next h => simpa using h

/-- A `fill` leaves every element of every other array alone. -/
theorem Memory.read_fill_other {a b : ArrayId} (h : b ≠ a) : (m.fill a n f).read b i = m.read b i := by
  unfold Memory.read
  rw [Memory.cells_fill_other _ _ _ h]

theorem Memory.elem_of_read {m : Memory} {a : ArrayId} {i : Nat} {x : Sample} (h : m.read a i = some x) :
    m.elem a i = x := by
  simp [Memory.elem, h]

theorem Memory.elem_fill_same (h : i < n) : (m.fill a n f).elem a i = f i :=
  Memory.elem_of_read (by rw [Memory.read_fill_same, if_pos h])

theorem Memory.elem_fill_other {a b : ArrayId} (h : b ≠ a) : (m.fill a n f).elem b i = m.elem b i := by
  unfold Memory.elem
  rw [Memory.read_fill_other _ _ _ _ h]

/-- The canonical form, array by array. -/
theorem Memory.wf_iff (c : Config) :
    Memory.wf c m = true ↔ ∀ a, (m.cells a).length = 0 ∨ (m.cells a).length = c.len a := by
  simp only [Memory.wf, List.all_eq_true, Bool.or_eq_true, beq_iff_eq]
  constructor
  · intro h a
    exact h a (by cases a <;> simp)
  · intro h a _
    exact h a

/-- The one operation that writes the data arrays keeps their canonical form. -/
theorem Memory.wf_fill (c : Config) (h : Memory.wf c m = true) : Memory.wf c (m.fill a (c.len a) f) = true := by
  rw [Memory.wf_iff] at h ⊢
  intro b
  by_cases hb : b = a
  · subst hb
    simp
  · rw [Memory.cells_fill_other _ _ _ hb]
    exact h b

/-- Arrays in which no element has a value are in the canonical form. -/
theorem Memory.wf_unspecified (c : Config) : Memory.wf c Memory.unspecified = true := rfl

@[simp] theorem cells_initialMemory (c : Config) : (initialMemory c).cells a = initialCells c a := by
  cases a <;> rfl

/-- Every element INIT writes (R278). -/
theorem read_initialMemory (c : Config) :
    (initialMemory c).read a i = if i < c.len a then some (initialElement c a i) else none := by
  unfold Memory.read
  rw [cells_initialMemory, initialCells]
  split
  · next h => simp [h]
  · next h => simpa using h

/-- INIT leaves the data arrays in the canonical form. -/
theorem Memory.wf_initial (c : Config) : Memory.wf c (initialMemory c) = true := by
  rw [Memory.wf_iff]
  intro a
  right
  simp [initialCells]

end Sys2Proof.Machine
end

