-- ==== Sys2Proof/Laws/Exec.lean ====
section
/-! SUPPORT. What a command and a step can do, said once: each answers a next state, and a step is one of three turns. -/

namespace Sys2Proof.Machine

/-- Past a successful INIT the gate is open (R272). -/
theorem State.gated_of_init {s : State} (h : s.initDone = true) (i : Instr) (effect : State → State) :
    s.gated i effect = effect s := by simp [State.gated, h]

/-- Before it, the gate takes NOT_INIT with the command's word (R272). -/
theorem State.gated_of_not_init {s : State} (h : s.initDone = false) (i : Instr) (effect : State → State) :
    s.gated i effect = s.raise .notInit (encode i) := by simp [State.gated, h]

/-! ### What each data command's effect is, in one record update -/

theorem ingestBlock_eq (s : State) :
    ingestBlock s = { s with mem := s.mem.fill .aw (s.cfg.len .aw) (shiftedIn s), newData := 0, pc := s.pc + 1 } := rfl

theorem windowFrame_eq (s : State) :
    windowFrame s =
      { s with
        mem := s.mem.fill .wf (s.cfg.len .wf) fun i => qmul (s.mem.elem .aw i) (s.mem.elem .wt i), pc := s.pc + 1 } := rfl

theorem transformFrame_eq (s : State) :
    transformFrame s = { s with mem := s.mem.fill .sc (s.cfg.len .sc) s.spectrum, pc := s.pc + 1 } := rfl

theorem magnitudes_eq (s : State) :
    magnitudes s =
      { s with
        mem := s.mem.fill .ms (s.cfg.len .ms) fun k => magnitude (s.val .sc (2 * k)) (s.val .sc (2 * k + 1)),
        pc := s.pc + 1 } := rfl

theorem mapImmediate_eq (m : Int) (s : State) :
    mapImmediate m s =
      { s with mapRes := mapResult (s.cfg.mapIndexBits m) (s.cfg.mapColour m), pc := s.pc + 1 } := rfl

theorem composeRow_eq (s : State) :
    composeRow s = { s with mem := s.mem.fill .rb (s.cfg.len .rb) (rowPixel s), pc := s.pc + 1 } := rfl

theorem advanceScroll_eq (s : State) :
    advanceScroll s =
      { s with
        events := s.events ++ s.rowEvents, lastRow := s.cursor, cursor := s.nextRow, frames := s.frames + 1,
        pc := s.pc + 1 } := rfl

/-- The landing of a block of `S` samples (R142). -/
theorem land_eq {s : State} {block : List Sample} (h : (block.length : Int) = s.cfg.S) :
    land block s =
      { s with
        mem := s.mem.fill .cb (s.cfg.len .cb) fun j => block[j]?.getD (Config.noValue .cb j),
        newData := BitVec.ofInt 16 s.cfg.S, drops := s.dropsAfterLanding } := by
  rw [land, if_pos h]
  rfl

/-- The landing of a block of another count (R142). -/
theorem land_fault {s : State} {block : List Sample} (h : (block.length : Int) ≠ s.cfg.S) :
    land block s = s.raise .srcCount (BitVec.ofNat 32 block.length) := if_neg h

/-- The state a command leaves. -/
def after (i : Instr) (s : State) : State :=
  match i with
  | .nop => s.nextPc
  | .init => initBlock s.answer s.useAnswer
  | .waitdata => s.gated .waitdata waitForData
  | .halt => { s with runState := .halted }
  | .jmp target => jumpTo target s
  | .ingest => s.gated .ingest ingestBlock
  | .window => s.gated .window windowFrame
  | .rfft => s.gated .rfft transformFrame
  | .cmag => s.gated .cmag magnitudes
  | .map m => s.gated (.map m) (mapImmediate m)
  | .compose => s.gated .compose composeRow
  | .advance => s.gated .advance advanceScroll

/-- Every command answers a next state. -/
theorem exec_eq (i : Instr) (s : State) : exec i s = .next (after i s) := by cases i <;> rfl

/-- A listed choice is the next turn. -/
theorem State.nextTurn_of_listed {s : State} {t : Turn} {ts : List Turn} (h : s.env.turns = t :: ts) :
    s.nextTurn = (t, s.withEnv { s.env with turns := ts }) := by simp [State.nextTurn, h]

/-- Past the list the next turn is a draw. -/
theorem State.nextTurn_of_unlisted {s : State} (h : s.env.turns = []) :
    s.nextTurn = (Config.freeTurn s.env.turnDraws, s.withEnv { s.env with turnDraws := s.env.turnDraws + 1 }) := by
  simp [State.nextTurn, h]

/-- A choice changes nothing but the environment's own side. -/
theorem State.nextTurn_state (s : State) : ∃ e, s.nextTurn.2 = s.withEnv e := by
  unfold State.nextTurn
  split <;> exact ⟨_, rfl⟩

/-- A step takes the next turn. -/
theorem step_of_turn {s u : State} {t : Turn} (h : s.nextTurn = (t, u)) : step s = u.take t := by simp [step, h]

/-- Everything a step can do (R94, R273, R340): the state `u` is `s` with the environment's choice used up. -/
theorem step_cases {s s' : State} (h : step s = .next s') :
    ∃ u : State, (∃ e, u = s.withEnv e) ∧
      ((u.runState ≠ .running ∧ s' = u) ∨
       (u.runState = .running ∧ u.fetch = none ∧ s' = u.raise .pcRange (u.pc.setWidth 32)) ∨
       (u.runState = .running ∧ ∃ w why, u.fetch = some w ∧ decode w = .illegal why ∧ s' = u.raise .illegalCmd w) ∨
       (u.runState = .running ∧ ∃ w i, u.fetch = some w ∧ decode w = .command i ∧ s' = after i u) ∨
       (∃ block, s' = offer block u) ∨
       (s.nextTurn.1 = .reset ∧ s' = u.hardReset)) := by
  refine ⟨s.nextTurn.2, s.nextTurn_state, ?_⟩
  · unfold step at h
    generalize s.nextTurn.2 = u at h ⊢
    generalize s.nextTurn.1 = t at h ⊢
    cases t with
    | seq =>
      simp only [State.take, State.seqTurn] at h
      cases hr : u.runState with
      | running =>
        simp only [hr, State.runCommand] at h
        cases hf : u.fetch with
        | none => simp only [hf, Host.Outcome.next.injEq] at h; exact .inr (.inl ⟨rfl, rfl, h.symm⟩)
        | some w =>
          simp only [hf] at h
          cases hd : decode w with
          | illegal why =>
            simp only [hd, Host.Outcome.next.injEq] at h
            exact .inr (.inr (.inl ⟨rfl, w, why, rfl, hd, h.symm⟩))
          | command i =>
            simp only [hd, exec_eq, Host.Outcome.next.injEq] at h
            exact .inr (.inr (.inr (.inl ⟨rfl, w, i, rfl, hd, h.symm⟩)))
      | halted => simp only [hr, Host.Outcome.next.injEq] at h; exact .inl ⟨by simp, h.symm⟩
      | faulted => simp only [hr, Host.Outcome.next.injEq] at h; exact .inl ⟨by simp, h.symm⟩
    | land block =>
      simp only [State.take, Host.Outcome.next.injEq] at h
      exact .inr (.inr (.inr (.inr (.inl ⟨block, h.symm⟩))))
    | reset =>
      simp only [State.take, Host.Outcome.next.injEq] at h
      exact .inr (.inr (.inr (.inr (.inr ⟨rfl, h.symm⟩))))

end Sys2Proof.Machine
end

