-- ==== Sys2Proof/Laws/PerInstr.lean ====
section
/-! SUPPORT. Statements made of every command, one lemma per constructor. -/

namespace Sys2Proof.Laws.Fields

/-- The word of a command carries its opcode in bits 31:24 and its operand field in bits 23:0 (30_encoding.md R110). -/
def Statement (i : Instr) : Prop := Machine.opField (encode i) = i.op ∧ Machine.opndField (encode i) = i.opnd

theorem fields_of_word (op : BitVec 8) (opnd : BitVec 24) :
    Machine.opField (op.setWidth 32 <<< 24 ||| opnd.setWidth 32) = op ∧
      Machine.opndField (op.setWidth 32 <<< 24 ||| opnd.setWidth 32) = opnd := by
  constructor
  · ext j h
    simp [Machine.opField, BitVec.getLsbD_eq_getElem h, show 24 + j < 32 by omega]
  · ext j h
    simp [Machine.opndField, h, show j < 32 by omega]

theorem nop : Statement .nop := fields_of_word _ _
theorem init : Statement .init := fields_of_word _ _
theorem waitdata : Statement .waitdata := fields_of_word _ _
theorem halt : Statement .halt := fields_of_word _ _
theorem jmp (target : Nat) : Statement (.jmp target) := fields_of_word _ _
theorem ingest : Statement .ingest := fields_of_word _ _
theorem window : Statement .window := fields_of_word _ _
theorem rfft : Statement .rfft := fields_of_word _ _
theorem cmag : Statement .cmag := fields_of_word _ _
theorem map (m : Int) : Statement (.map m) := fields_of_word _ _
theorem compose : Statement .compose := fields_of_word _ _
theorem advance : Statement .advance := fields_of_word _ _

end Sys2Proof.Laws.Fields
end

