-- ==== Sys2Proof/Tests/Slice0.lean ====
section
/-! SUPPORT. Tests: expected values from spec/95_test_vectors.md and the words of spec/30_encoding.md R113 and R119, one step each; and a
witness for each obligation that has hypotheses. -/

namespace Sys2Proof.Tests

open Sys2Proof.Machine

-- One theorem at a time: each kernel check in flight holds a thread's stack.
set_option Elab.async false

/-! ### The test configuration and states -/

/-- `CLUT_T` of 95_test_vectors.md. -/
def clutT : Vector Colour 256 := Vector.ofFn fun i => BitVec.ofNat 16 (0x8000 + i.val)

/-- `CLUT_ID` of 95_test_vectors.md. -/
def clutId : Vector Colour 256 := Vector.ofFn fun i => BitVec.ofNat 16 i.val

/-- `TINY` of 95_test_vectors.md, with the default program. -/
def tiny : Config :=
  { N := 32, S := 8, G := 0, SKIP := 1, SMAX := 100, W := 8, H := 4, RATE := 8000, CLUT := clutT, PROG := Config.defaultProgram }

/-- `DEFAULT` of 95_test_vectors.md with `CLUT_T`. -/
def dflt : Config := { Config.default with CLUT := clutT }

/-- Samples from integers. -/
def samples (xs : List Int) : List Sample := xs.map (BitVec.ofInt 16)

/-- An environment with listed turns and one pair of true answers. -/
def envOf (ts : List Turn) : Env := { turns := ts, turnDraws := 0, answers := [⟨true, true⟩], draws := 0 }

/-- Right after reset. -/
def atReset (c : Config) : State := State.resetOf c (envOf [])

/-- After a successful INIT at index 0, with the default program. -/
def ready (c : Config) (ts : List Turn) : State :=
  { State.resetOf c (envOf ts) with initDone := true, srcRunning := true, pc := 1, mem := initialMemory c }

/-- The next state, if there is one. -/
def nextOf (o : Host.Outcome State Fault Refusal) : Option State :=
  match o with
  | .next s => some s
  | .fault _ => none
  | .refused _ => none

/-- A value of the next state, if there is one. -/
def inNext {α : Type} (o : Host.Outcome State Fault Refusal) (f : State → α) : Option α := (nextOf o).map f

/-- The integers of an array's elements. -/
def ints (s : State) (a : ArrayId) : List Int := (s.mem.cells a).map fun x => x.toInt

/-- The fault record and `RUNSTATE`. -/
def faultOf (s : State) : Nat × Nat × Nat × RunState := (s.fault.cause.toNat, s.fault.pc.toNat, s.fault.info.toNat, s.runState)

/-! ### WellFormed: the operand ranges of R117 -/

theorem test_wf_jmp_too_large : (Instr.jmp 65536).wf = false := by decide
theorem test_wf_jmp_largest : (Instr.jmp 65535).wf = true := by decide
theorem test_wf_map_too_large : (Instr.map 32768).wf = false := by decide
theorem test_wf_map_too_small : (Instr.map (-32769)).wf = false := by decide
theorem test_wf_map_bounds : (Instr.map 32767).wf = true ∧ (Instr.map (-32768)).wf = true := by decide

/-! ### Decoding: OP in bits 31:24, then the operand field (R110, R113, R119, and 2.2 of 95_test_vectors.md) -/

theorem test_decode_nop : decode 0b00000000_00000000_00000000_00000000#32 = .command .nop := by decide
theorem test_decode_init : decode 0b00000001_00000000_00000000_00000000#32 = .command .init := by decide
theorem test_decode_waitdata : decode 0b00000010_00000000_00000000_00000000#32 = .command .waitdata := by decide
theorem test_decode_halt : decode 0b00000011_00000000_00000000_00000000#32 = .command .halt := by decide
theorem test_decode_jmp : decode 0b00000100_00000000_00000011_11111111#32 = .command (.jmp 1023) := by decide
theorem test_decode_jmp_unsigned : decode 0b00000100_00000000_11111111_11111111#32 = .command (.jmp 65535) := by decide
theorem test_decode_ingest : decode 0b00010000_00000000_00000000_00000000#32 = .command .ingest := by decide
theorem test_decode_window : decode 0b00100000_00000000_00000000_00000000#32 = .command .window := by decide
theorem test_decode_rfft : decode 0b00100001_00000000_00000000_00000000#32 = .command .rfft := by decide
theorem test_decode_cmag : decode 0b00100010_00000000_00000000_00000000#32 = .command .cmag := by decide
theorem test_decode_map : decode 0b00110000_00000000_00000111_11010000#32 = .command (.map 2000) := by decide
theorem test_decode_map_signed : decode 0b00110000_00000000_11111111_11111011#32 = .command (.map (-5)) := by decide
theorem test_decode_compose : decode 0b01000000_00000000_00000000_00000000#32 = .command .compose := by decide
theorem test_decode_advance : decode 0b01000001_00000000_00000000_00000000#32 = .command .advance := by decide

theorem test_decode_illegal_kinds :
    decode 0x05000000#32 = .illegal .unassignedOp ∧ decode 0xFFFFFFFF#32 = .illegal .unassignedOp ∧
    decode 0x00000001#32 = .illegal .operandNotZero ∧ decode 0x00FFFFFF#32 = .illegal .operandNotZero ∧
    decode 0x10000001#32 = .illegal .operandNotZero ∧ decode 0x04010000#32 = .illegal .upperBitsNotZero ∧
    decode 0x30010000#32 = .illegal .upperBitsNotZero := by decide

theorem test_encode_words :
    encode (.jmp 1) = 0x04000001#32 ∧ encode (.map (-32768)) = 0x30008000#32 ∧ encode (.map 50) = 0x30000032#32 ∧
    encode .window = 0x20000000#32 ∧ encode .advance = 0x41000000#32 := by decide

theorem test_decodeTableWord :
    decodeTableWord 32 0x040003FF = some (.jmp 1023) ∧ decodeTableWord 32 0x23000000 = none := by decide

/-! ### Arithmetic primitives (2.1) -/

theorem test_sat16 : (sat16 40000).toInt = 32767 ∧ (sat16 (-40000)).toInt = -32768 := by decide
theorem test_q15_ties : (q15 1 65536).toInt = 1 ∧ (q15 (-1) 65536).toInt = -1 ∧ (q15 3 65536).toInt = 2 := by decide
theorem test_q15_ends : (q15 1 1).toInt = 32767 ∧ (q15 (-1) 1).toInt = -32768 := by decide
theorem test_rshr : rshr (-3) 1 = -1 ∧ rshr (-5) 2 = -1 ∧ rshr 5 1 = 3 ∧ rshr (-1) 1 = 0 := by decide
theorem test_isqrt : isqrt 15 = 3 ∧ isqrt 16 = 4 ∧ isqrt (2 ^ 30) = 32768 ∧ isqrt (2 ^ 31) = 46340 := by decide
theorem test_qmul : (qmul (-1) 1).toInt = -1 ∧ (qmul (-3) 16384).toInt = -2 := by decide
theorem test_gshift : (gshift 8192 2).toInt = 32767 ∧ (gshift (-8192) 2).toInt = -32768 ∧ (gshift 8191 2).toInt = 32764 := by decide

/-! ### Tables (2.5; 42_spectral.md R171 and R172) -/

theorem test_window_table : (dflt.windowCoeff 0).toInt = 0 ∧ (dflt.windowCoeff 1).toInt = 5 ∧ (dflt.windowCoeff 64).toInt = 16384 ∧
    (dflt.windowCoeff 128).toInt = 32767 ∧ (dflt.windowCoeff 255).toInt = 5 := by decide +kernel

theorem test_twiddle_table : (tiny.twiddle 1).toInt = 32138 ∧ (tiny.twiddle 8).toInt = 0 ∧ (tiny.twiddle 16).toInt = -32768 ∧
    (tiny.twiddle 17).toInt = -32138 := by decide +kernel

/-! ### Sequencer commands (2.11) -/

theorem test_nop : inNext (exec .nop { atReset tiny with pc := 5 }) (fun t => t.pc.toNat) = some 6 := by decide

theorem test_jmp : inNext (exec (.jmp 1) { ready tiny [] with pc := 8 }) (fun t => t.pc.toNat) = some 1 := by decide +kernel

theorem test_jmp_past_end :
    inNext (exec (.jmp 9) { ready tiny [] with pc := 8 }) faultOf = some (5, 8, 9, .faulted) := by decide +kernel

theorem test_halt : inNext (exec .halt { atReset tiny with pc := 8 }) (fun t => (t.pc.toNat, t.runState, t.status.toNat)) =
    some (8, .halted, 2) := by decide +kernel

theorem test_waitdata_blocks : inNext (exec .waitdata (ready tiny [])) (fun t => (t.pc.toNat, t.status.toNat)) = some (1, 0x19) := by
  decide +kernel

theorem test_waitdata_proceeds :
    inNext (exec .waitdata { ready tiny [] with newData := 8 }) (fun t => (t.pc.toNat, t.newData.toNat)) = some (2, 8) := by
  decide +kernel

/-! ### INIT (2.11) -/

theorem test_init : inNext (exec .init (atReset tiny)) (fun t => (t.pc.toNat, t.status.toNat, t.events)) =
    some (1, 0x19, [.dispInit 8 4, .dispClear, .srcConfig 8000 8, .srcStart]) := by decide +kernel

theorem test_init_source_fails :
    inNext (exec .init (State.resetOf tiny { turns := [], turnDraws := 0, answers := [⟨true, false⟩], draws := 0 }))
      (fun t => (t.status.toNat, t.mem.RB.length, t.events)) =
    some (0x304, 8, [.dispInit 8 4, .dispClear, .srcConfig 8000 8]) := by decide +kernel

theorem test_config_masks :
    ({ dflt with N := 100 } : Config).bad = 0x21#32 ∧ ({ dflt with S := 0 } : Config).bad = 0x02#32 ∧
    ({ dflt with W := 7 } : Config).bad = 0x08#32 ∧ ({ dflt with SKIP := 9 } : Config).bad = 0x20#32 ∧
    ({ dflt with G := 16, SMAX := 0 } : Config).bad = 0x44#32 ∧ ({ dflt with H := 0, RATE := 0 } : Config).bad = 0x90#32 := by
  decide +kernel

/-! ### Landing (2.3) and INGEST (2.4) -/

theorem test_landing_counts_the_lost :
    inNext (step { ready tiny [.land (samples [9, 9, 9, 9, 9, 9, 9, 9])] with newData := 8 })
      (fun t => (t.newData.toNat, t.drops.toNat, ints t .cb)) = some (8, 1, [9, 9, 9, 9, 9, 9, 9, 9]) := by decide +kernel

theorem test_landing_of_seven_faults :
    inNext (step (ready tiny [.land (samples [1, 2, 3, 4, 5, 6, 7])])) (fun t => (faultOf t, t.status.toNat, t.newData.toNat)) =
      some ((7, 1, 7, .faulted), 0x715, 0) := by decide +kernel

/-- `AW[i] = i` and `CB` given. -/
def ramp (c : Config) (cb : List Int) : State :=
  { ready c [] with
    mem := { initialMemory c with AW := (List.range c.N.toNat).map (BitVec.ofNat 16), CB := samples cb }, newData := 8 }

theorem test_ingest_shifts :
    inNext (exec .ingest (ramp tiny [100, 101, 102, 103, 104, 105, 106, 107])) (fun t => (ints t .aw, t.newData.toNat)) =
      some ([8, 9, 10, 11, 12, 13, 14, 15, 16, 17, 18, 19, 20, 21, 22, 23, 24, 25, 26, 27, 28, 29, 30, 31,
        100, 101, 102, 103, 104, 105, 106, 107], 0) := by decide +kernel

theorem test_ingest_gain :
    inNext (exec .ingest (ramp { tiny with G := 2 } [10000, -9000, -1, 8191, 8192, -8192, 0, 1])) (fun t => (ints t .aw).drop 24) =
      some [32767, -32768, -4, 32764, 32767, -32768, 0, 4] := by decide +kernel

/-! ### WINDOW (2.5), RFFT (2.6), CMAG (2.7) -/

/-- Every element of one array the same. -/
def constant (a : ArrayId) (x : Sample) : State :=
  { ready tiny [] with mem := (initialMemory tiny).setCells a (List.replicate (tiny.len a) x) }

theorem test_window_of_constant :
    inNext (exec .window (constant .aw 1000)) (fun t => (ints t .wf).take 17) =
      some [0, 9, 38, 84, 146, 222, 308, 402, 500, 597, 691, 777, 853, 915, 961, 990, 999] := by decide +kernel

theorem test_window_of_minus_one :
    inNext (exec .window (constant .aw (-1))) (fun t => (ints t .wf).take 3) = some [0, -1, -1] := by decide +kernel

theorem test_rfft_of_constant :
    inNext (exec .rfft (constant .wf (-32768))) (fun t => ints t .sc) = some (-32767 :: List.replicate 31 0) := by decide +kernel

theorem test_rfft_of_sine :
    inNext (exec .rfft { ready tiny [] with
        mem := { initialMemory tiny with WF := (List.replicate 8 (samples [0, 16384, 0, -16384])).flatten } }) (fun t => ints t .sc) =
      some (List.replicate 17 0 ++ [-8192] ++ List.replicate 14 0) := by decide +kernel

theorem test_cmag :
    inNext (exec .cmag { ready tiny [] with
        mem := { initialMemory tiny with
          SC := samples [3, 4, -3, -4, 100, 100, 1000, -1000, -32768, 0, 23170, 23170, 23171, 23171, -32768, -32768] ++
            List.replicate 16 0 } }) (fun t => ints t .ms) =
      some [5, 5, 141, 1414, 32767, 32767, 32767, 32767, 0, 0, 0, 0, 0, 0, 0, 0] := by decide +kernel

theorem test_data_command_before_init :
    inNext (exec .window (atReset tiny)) (fun t => (faultOf t, t.status.toNat)) =
      some ((6, 0, 0x20000000, .faulted), 0x604) := by decide +kernel

/-! ### MAP (2.8), COMPOSE (2.9), ADVANCE (2.10) -/

theorem test_map_index :
    [0, 1, 2, 3, 50, 99, 100, 101, -1].map tiny.mapIndex = [0, 3, 5, 8, 128, 252, 255, 255, 0] := by decide

theorem test_map : inNext (exec (.map 50) (ready tiny [])) (fun t => t.mapRes.toNat) = some 0x00808080 := by decide +kernel

theorem test_map_negative : inNext (exec (.map (-1)) (ready tiny [])) (fun t => t.mapRes.toNat) = some 0x00008000 := by decide +kernel

theorem test_compose :
    inNext (exec .compose { ready { tiny with CLUT := clutId } [] with
        mem := { initialMemory tiny with MS := samples [7, 100, 50, 25, 75, 9, 9, 9, 9, 9, 9, 9, 9, 9, 9, 9] } })
      (fun t => t.mem.RB.map fun x => x.toNat) = some [191, 191, 64, 64, 128, 128, 255, 255] := by decide +kernel

theorem test_advance :
    inNext (exec .advance { constant .rb 0x80FF with cursor := 3, frames := 3 })
      (fun t => (t.events, t.lastRow.toNat, t.cursor.toNat, t.frames.toNat)) =
    some ([.dispCursor 0 3, .dispWrite (List.replicate 8 0x80FF) 16, .dispVScroll 3], 3, 0, 4) := by decide +kernel

/-! ### The step (2.12), reset, and the placing of a word -/

theorem test_step_illegal_before_gate :
    inNext (step (State.resetOf { tiny with PROG := [0x20000001] } (envOf [.seq]))) faultOf = some (4, 0, 0x20000001, .faulted) := by decide +kernel

theorem test_step_past_the_end :
    inNext (step { ready { tiny with PROG := [0x01000000, 0] } [.seq] with pc := 2 }) (fun t => (faultOf t, t.status.toNat)) =
      some ((5, 2, 2, .faulted), 0x515) := by decide +kernel

theorem test_step_reset :
    inNext (step { ready tiny [.reset] with runState := .faulted, fault := ⟨7, 1, 7⟩, frames := 9 })
      (fun t => (t.runState, t.initDone, t.fault.cause.toNat, t.frames.toNat, t.mem.AW.length, t.pc.toNat)) =
    some (.running, false, 0, 0, 0, 0) := by decide +kernel

theorem test_withFetchWord :
    inNext (step (State.reset.withFetchWord 32 0x03000000)) (fun t => (t.runState, t.pc.toNat)) = some (.halted, 0) := by decide +kernel

/-! ### The host port (2.13), the sink (2.10), the assembler (P3) -/

theorem test_host_reads :
    [0x0000, 0x0004, 0x0040, 0x0064, 0x2040, 0x9040, 0x83FC, 0xA020].map (fun a => (ready tiny []).memRead 0 (BitVec.ofNat 16 a) 4) =
      [.ok 0x19, .ok 1, .ok 32, .ok 16, .ok 0x7FFF, .ok 0xFFFF8000, .ok 0x80FF, .ok 0x04000001] := by decide +kernel

theorem test_host_bus_errors :
    [(0x0002, 4), (0x0000, 2), (0x0028, 4), (0x1080, 4), (0x5040, 4), (0xB000, 4)].map
      (fun p => (ready tiny []).memRead 0 (BitVec.ofNat 16 p.1) p.2) = List.replicate 6 .busErr := by decide +kernel

/-- The sink after INIT and three ADVANCEs (2.10), row `r` all `r + 1`. -/
def threeRows : List Event :=
  [.dispInit 2 4, .dispClear, .srcConfig 8000 8, .srcStart, .dispCursor 0 0, .dispWrite [1, 1] 4, .dispVScroll 0,
    .dispCursor 0 1, .dispWrite [2, 2] 4, .dispVScroll 1, .dispCursor 0 2, .dispWrite [3, 3] 4, .dispVScroll 2]

theorem test_sink_lines :
    ((Sink.mk 0 0 [] 0 0 0).run 0 threeRows).map (fun k => [0, 1, 2, 3].map k.line) =
      some [some [some 3, some 3], some [some 0, some 0], some [some 1, some 1], some [some 2, some 2]] := by decide +kernel

theorem test_assemble :
    assemble "INIT\nloop: WAITDATA ; wait\nFRAME\nMAP #-1\n.word 0x30010000\nJMP loop\n" =
      some [0x01000000, 0x02000000, 0x10000000, 0x20000000, 0x21000000, 0x22000000, 0x40000000, 0x41000000, 0x3000FFFF,
        0x30010000, 0x04000001] := by decide +kernel

/-! ### Witnesses: states and operands that meet the hypotheses of the obligations together -/

/-- A step answers a next state that `p` holds of. -/
def stepsTo (s : State) (p : State → Prop) : Prop := ∃ t, step s = .next t ∧ p t

/-- A running state in front of one word. -/
def before (w : Word) : State := { ready { tiny with PROG := [w] } [.seq] with pc := 0 }

theorem witness_DecodeOfEncodeIsTheCommand :
    (Instr.jmp 0).wf = true ∧ (Instr.jmp 65535).wf = true ∧ (Instr.map 32767).wf = true ∧ (Instr.map (-32768)).wf = true := by decide

theorem witness_EncodeOfDecodeIsTheWord :
    decode 0x0400FFFF#32 = .command (.jmp 65535) ∧ decode 0x30008000#32 = .command (.map (-32768)) := by decide

/-- A state with no turn listed any more. -/
def unlisted (s : State) : State := { s with env := { s.env with turns := [] } }

/-- SEQ is about to fetch an illegal word. -/
def fetchesIllegal (w : Word) : Bool :=
  (before w).runState == .running && (before w).nextTurn == (.seq, unlisted (before w)) && (before w).cfg.PROG[(before w).pc.toNat]? == some w &&
    decode w == .illegal (illegalKind w)

/-- The ends of each kind's ranges (R115). -/
def illegalWords : List Word :=
  [0x05000000, 0x0F000000, 0x11000000, 0x1F000000, 0x23000000, 0x2F000000, 0x31000000, 0x3F000000, 0x42000000, 0xFFFFFFFF,
    0x00000001, 0x41000001, 0x04010000, 0x30010000]

theorem witness_IllegalWordsAreThreeKindsAndFault : illegalWords.all fetchesIllegal = true := by decide +kernel

theorem witness_PseudoInstructionsExpandInPlace : emitWords [] [{ label := none, body := .jumpTo [] }] = none ∧
    emitWords [([], 3)] [{ label := none, body := .jumpTo [] }] = some [0x04000003#32] := by decide +kernel

theorem witness_StepExecutesTheDecodedCommand :
    (ready tiny [.seq]).runState = .running ∧ (ready tiny [.seq]).nextTurn = (.seq, { ready tiny [.seq] with env := envOf [] }) ∧
      (ready tiny [.seq]).cfg.PROG[(ready tiny [.seq]).pc.toNat]? = some 0x02000000#32 ∧ decode 0x02000000#32 = .command .waitdata :=
  ⟨rfl, rfl, rfl, by decide⟩

/-- `TINY` after INIT with `pc` at the end of the program, or at the largest index. -/
def atEnd (pc : BitVec 16) : State := { ready tiny [.seq] with pc := pc }

theorem witness_FetchPastTheProgramRaisesPcRange :
    (atEnd 9).runState = .running ∧ (atEnd 9).nextTurn = (.seq, { atEnd 9 with env := envOf [] }) ∧
      (atEnd 9).cfg.PROG.length ≤ (atEnd 9).pc.toNat ∧ (atEnd 0xFFFF).cfg.PROG.length ≤ (atEnd 0xFFFF).pc.toNat :=
  ⟨rfl, rfl, by decide +kernel, by decide +kernel⟩

/-- A state before INIT, in front of one word. -/
def notReady (w : Word) : State := State.resetOf { tiny with PROG := [w] } (envOf [.seq])

theorem witness_DecodeGateRaisesWithTheWord :
    (notReady 0x20000001).runState = .running ∧ (notReady 0x20000001).nextTurn = (.seq, { notReady 0x20000001 with env := envOf [] }) ∧
      (notReady 0x20000001).cfg.PROG[(notReady 0x20000001).pc.toNat]? = some 0x20000001#32 ∧
      decode 0x20000001#32 = .illegal .operandNotZero ∧
      (notReady 0x20000000).cfg.PROG[(notReady 0x20000000).pc.toNat]? = some 0x20000000#32 ∧
      decode 0x20000000#32 = .command .window ∧ Instr.window ∉ [Instr.nop, .init, .halt] ∧ (∀ target, Instr.window ≠ .jmp target) ∧
      (notReady 0x20000000).initDone = false :=
  ⟨rfl, rfl, rfl, by decide, rfl, by decide, by decide, nofun, rfl⟩

theorem witness_SeqWithoutEnabledStepChangesNothing :
    (ready tiny [.seq]).seqEnabled = false ∧ ({ ready tiny [.seq] with runState := .halted } : State).seqEnabled = false ∧
      ({ ready tiny [.seq] with runState := .faulted } : State).seqEnabled = false ∧
      (ready tiny [.seq]).nextTurn = (.seq, { ready tiny [.seq] with env := envOf [] }) :=
  ⟨by decide +kernel, by decide +kernel, by decide +kernel, rfl⟩

theorem witness_JmpSetsPcOrRaisesPcRange :
    (8 : Nat) < 65536 ∧ 8 < tiny.PROG.length ∧ (9 : Nat) < 65536 ∧ tiny.PROG.length ≤ 9 ∧ tiny.PROG.length ≤ 65535 := by decide +kernel

theorem witness_WaitdataProceedsOrBlocks :
    (ready tiny []).initDone = true ∧ (ready tiny []).newData = 0#16 ∧ (ready tiny []).runState = .running ∧
      tiny.PROG[(ready tiny []).pc.toNat]? = some 0x02000000#32 ∧ ({ ready tiny [] with newData := 8 } : State).newData ≠ 0#16 := by
  decide +kernel

theorem witness_HaltStopsSeq : (ready tiny [.seq]).nextTurn = (.seq, { ready tiny [.seq] with env := envOf [] }) := rfl

theorem witness_InitBringsUpTheBlock :
    (atReset tiny).cfg.legal = true ∧ (atReset tiny).answer.dispOk = true ∧ (atReset tiny).answer.srcOk = true := by decide +kernel

theorem witness_InitReportsEveryFailedCheck :
    (100 : Int) ∉ [(32 : Int), 64, 128, 256, 512, 1024] ∧ (atReset { dflt with N := 100 }).cfg.N = 100 ∧
      ¬ (2 * (atReset { tiny with SKIP := 13 }).cfg.SKIP + tiny.W ≤ tiny.N) ∧ 2 * (12 : Int) + tiny.W ≤ tiny.N := by decide +kernel

theorem witness_InitKeepsWritesMadeBeforeItsFault :
    (atReset tiny).cfg.legal = true ∧
      (State.resetOf tiny { turns := [], turnDraws := 0, answers := [⟨false, true⟩], draws := 0 }).answer.dispOk = false ∧
      (State.resetOf tiny { turns := [], turnDraws := 0, answers := [⟨true, false⟩], draws := 0 }).answer = ⟨true, false⟩ := by decide +kernel

/-- A block of `TINY`'s size. -/
def eight : List Sample := samples [1, 2, 3, 4, 5, 6, 7, 8]

theorem witness_LandingStoresTheBlockOrFaults :
    (ready tiny [.land eight]).nextTurn = (.land eight, { ready tiny [.land eight] with env := envOf [] }) ∧
      (ready tiny [.land []]).nextTurn = (.land [], { ready tiny [.land []] with env := envOf [] }) ∧
      (ready tiny [.land eight]).srcRunning = true ∧ (ready tiny [.land eight]).runState ≠ .faulted ∧
      (eight.length : Int) = tiny.S ∧ (([] : List Sample).length : Int) ≠ tiny.S :=
  ⟨rfl, rfl, rfl, nofun, by decide +kernel, by decide +kernel⟩

theorem witness_NoLandingWhileDisabled :
    (State.resetOf tiny (envOf [.land eight])).nextTurn = (.land eight, State.resetOf tiny (envOf [])) ∧
      (State.resetOf tiny (envOf [.land eight])).srcRunning = false ∧
      ({ ready tiny [.land eight] with runState := .faulted } : State).runState = .faulted := ⟨rfl, rfl, rfl⟩

theorem witness_ConsecutiveLandingsCountTheLost :
    (ready tiny [.land eight, .land eight]).env.turns = ([eight] ++ [eight]).map Turn.land ∧ (ready tiny []).srcRunning = true ∧
      (ready tiny []).runState ≠ .faulted ∧ (ready tiny []).newData = 0#16 ∧ 1 ≤ tiny.S ∧ tiny.S ≤ 1024 ∧
      ∀ b ∈ [eight] ++ [eight], (b.length : Int) = tiny.S := by decide +kernel

theorem witness_IngestShiftsInTheCaptureBuffer :
    (ready tiny []).initDone = true ∧ 1 ≤ tiny.S ∧ tiny.S ≤ tiny.N ∧ 0 < tiny.N.toNat - tiny.S.toNat ∧ 7 < tiny.S.toNat ∧
      1 ≤ ({ tiny with S := 32 } : Config).S ∧ ({ tiny with S := 32 } : Config).S ≤ tiny.N := by decide +kernel

theorem witness_WindowIsTheLastSamplesIngested :
    (ready tiny []).initDone = true ∧ (ready tiny []).srcRunning = true ∧ (ready tiny []).runState ≠ .faulted ∧ 1 ≤ tiny.S ∧
      tiny.S ≤ tiny.N ∧ ((ready tiny []).mem.AW.length : Int) = tiny.N ∧
      ∀ b ∈ [eight, eight, eight], (b.length : Int) = tiny.S := by decide +kernel

theorem witness_GainShiftSaturates : (0 : Int) ≤ 15 ∧ (15 : Int) ≤ 15 ∧ 0 < (32767#16).toInt := by decide

theorem witness_WindowMultipliesElementwise : (ready tiny []).initDone = true ∧ 31 < tiny.N.toNat := by decide +kernel

theorem witness_OnlyOneQ15ProductSaturates :
    (0x8000#16).toInt = -32768 ∧ ¬ ((0x8000#16).toInt = -32768 ∧ (0x8001#16).toInt = -32768) := by decide

theorem witness_RfftIsTheScaledDirectDft :
    (ready tiny []).initDone = true ∧ (ready tiny []).cfg.N = 2 ^ 5 ∧ 15 < 2 ^ 5 / 2 ∧
      ({ tiny with N := 1024 } : Config).N = 2 ^ 10 := by decide +kernel

theorem witness_RfftBinZeroIsReal :
    (ready tiny []).initDone = true ∧ tiny.N ∈ [(32 : Int), 64, 128, 256, 512, 1024] ∧
      (nextOf (exec .rfft (ready tiny []))).isSome = true := by decide +kernel

theorem witness_RfftAccumulatorFitsFortyTwoBits :
    tiny.N ∈ [(32 : Int), 64, 128, 256, 512, 1024] ∧ (1024 : Int) ∈ [(32 : Int), 64, 128, 256, 512, 1024] := by decide +kernel

theorem witness_CmagIsTheFloorSquareRoot : (ready tiny []).initDone = true ∧ 15 < tiny.N.toNat / 2 := by decide +kernel

theorem witness_TwiddleTableIsTheExactCosine :
    tiny.N ∈ [(32 : Int), 64, 128, 256, 512, 1024] ∧ ((31 : Nat) : Int) < tiny.N := by decide +kernel

theorem witness_WindowTableIsTheExactRaisedCosine :
    tiny.N ∈ [(32 : Int), 64, 128, 256, 512, 1024] ∧ ((16 : Nat) : Int) < tiny.N := by decide +kernel

theorem witness_WindowTableIsSymmetric :
    tiny.N = ((32 : Nat) : Int) ∧ 32 ∈ [32, 64, 128, 256, 512, 1024] ∧ 31 < 32 ∧ (tiny.windowCoeff 16).toInt = 32767 := by decide +kernel

theorem witness_AnalyzeDependsOnlyOnWindowAndTable :
    (ready tiny []).cfg = (constant .wf 1000).cfg ∧ (ready tiny []).initDone = true ∧ (constant .wf 1000).initDone = true ∧
      ∀ i, i < tiny.N.toNat → (ready tiny []).mem.read .aw i = (constant .wf 1000).mem.read .aw i ∧
        (ready tiny []).mem.read .wt i = (constant .wf 1000).mem.read .wt i :=
  ⟨rfl, rfl, rfl, fun _ _ => ⟨rfl, rfl⟩⟩

theorem witness_MapIndexRoundsHalfUp :
    1 ≤ tiny.SMAX ∧ tiny.SMAX ≤ 32767 ∧ 1 ≤ ({ tiny with SMAX := 1 } : Config).SMAX ∧
      ({ tiny with SMAX := 32767 } : Config).SMAX ≤ 32767 := by decide +kernel

theorem witness_MapIndexIsMonotonicAndSaturates :
    1 ≤ tiny.SMAX ∧ tiny.SMAX ≤ 32767 ∧ (99 : Int) ≤ 100 ∧ tiny.SMAX ≤ 100 ∧ (0 : Int) ≤ 0 ∧
      510 * 3 < ({ tiny with SMAX := 2000 } : Config).SMAX := by decide +kernel

theorem witness_MapWritesIndexAndColour :
    (ready tiny []).initDone = true ∧ 1 ≤ tiny.SMAX ∧ tiny.SMAX ≤ 32767 ∧ (-32768 : Int) ≤ -32768 ∧ (-32768 : Int) ≤ 32767 ∧
      (32767 : Int) ≤ 32767 := by decide +kernel

theorem witness_ComposeWritesEachBinTwice :
    (ready tiny []).initDone = true ∧ 2 ≤ tiny.W ∧ tiny.W % 2 = 0 ∧ 0 ≤ tiny.SKIP ∧ 3 < tiny.W.toNat / 2 := by decide +kernel

/-- `MS` all 9 outside the kept bins 1 to 4. -/
def otherBins : State := { ready tiny [] with mem := { initialMemory tiny with MS := samples ([9, 0, 0, 0, 0] ++ List.replicate 11 9) } }

theorem witness_ComposeReadsOnlyTheKeptBins :
    (ready tiny []).cfg = otherBins.cfg ∧ (ready tiny []).initDone = true ∧ otherBins.initDone = true ∧ 2 ≤ tiny.W ∧ tiny.W % 2 = 0 ∧
      (∀ k, k < tiny.SKIP.toNat + tiny.W.toNat / 2 → tiny.SKIP.toNat ≤ k →
        (ready tiny []).mem.read .ms k = otherBins.mem.read .ms k) ∧
      (nextOf (exec .compose (ready tiny []))).isSome = true ∧ (nextOf (exec .compose otherBins)).isSome = true := by decide +kernel

theorem witness_AdvanceWritesTheRowAtTheCursor :
    (ready tiny []).initDone = true ∧ 1 ≤ tiny.H ∧ tiny.H ≤ 1024 ∧ 7 < tiny.W.toNat := by decide +kernel

theorem witness_AdvancesVisitTheRowsInTurn :
    (ready tiny []).initDone = true ∧ 1 ≤ tiny.H ∧ tiny.H ≤ 1024 ∧
      (({ ready tiny [] with cursor := 3 } : State).cursor.toNat : Int) < tiny.H := by decide +kernel

/-- The sink after INIT for `TINY` and three rows, in front of row 3. -/
def sinkBeforeRowThree : Sink := { width := 8, height := 4, fb := List.replicate 4 (List.replicate 8 none), vs := 2, col := 0, row := 2 }

theorem witness_NewestRowShowsOnScreenLineZero :
    (ready tiny []).initDone = true ∧ 0 ≤ tiny.W ∧ 1 ≤ tiny.H ∧ tiny.H ≤ 1024 ∧
      (({ ready tiny [] with cursor := 3 } : State).cursor.toNat : Int) < tiny.H ∧ (sinkBeforeRowThree.width : Int) = tiny.W ∧
      (sinkBeforeRowThree.height : Int) = tiny.H ∧ sinkBeforeRowThree.fb.length = sinkBeforeRowThree.height ∧
      (sinkBeforeRowThree.vs + 1) % sinkBeforeRowThree.height = ({ ready tiny [] with cursor := 3 } : State).cursor.toNat := by
  decide +kernel

theorem witness_FaultsArePrecise :
    stepsTo (notReady 0x20000000) fun t =>
      (notReady 0x20000000).runState ≠ .faulted ∧ t.runState = .faulted ∧ t.fault.cause = 6#8 :=
  ⟨_, rfl, by decide +kernel⟩

/-- A faulted state with one listed turn. -/
def faultedBefore (t : Turn) : State := { ready tiny [t] with runState := .faulted }

theorem witness_FaultedBlockIsFrozen :
    (faultedBefore .seq).runState = .faulted ∧ Turn.land eight ≠ .reset ∧ Turn.seq ≠ .reset ∧
      (faultedBefore (.land eight)).nextTurn = (.land eight, { faultedBefore (.land eight) with env := envOf [] }) ∧
      (faultedBefore .seq).nextTurn = (.seq, { faultedBefore .seq with env := envOf [] }) :=
  ⟨rfl, nofun, nofun, rfl, rfl⟩

theorem witness_DataCommandsNeverFault :
    (ready tiny []).initDone = true ∧ Instr.cmag ∈ [Instr.waitdata, .ingest, .window, .rfft, .cmag, .compose, .advance] ∧
      (nextOf (exec .cmag (ready tiny []))).isSome = true := by decide +kernel

theorem witness_ResetRestoresTheResetState :
    (ready tiny [.reset, .seq]).nextTurn = (.reset, { ready tiny [.reset, .seq] with env := envOf [.seq] }) := rfl

theorem witness_OnlyResetLeavesTheStoppedStates :
    stepsTo { ready tiny [.seq] with runState := .halted } fun t => (ready tiny [.seq]).nextTurn.1 ≠ .reset ∧ t.runState = .halted :=
  ⟨_, rfl, by decide +kernel⟩

theorem witness_NoStepChangesTheConfiguration : stepsTo (ready tiny [.seq]) fun t => t.cfg = tiny := ⟨_, rfl, by decide +kernel⟩

theorem witness_CommandsWriteOnlyTheirColumn : (nextOf (exec .advance (ready tiny []))).isSome = true := by decide +kernel

/-- The state after INIT is in the invariant, with `INIT_DONE` set. -/
theorem ready_inv : (ready tiny [.seq]).Inv where
  flags := rfl
  ready := fun _ =>
    { legal := by decide +kernel
      full := by intro a; cases a <;> (unfold State.Full; decide +kernel)
      newData := by decide +kernel
      cursor := by decide +kernel
      lastRow := by decide +kernel
      magnitudes := by decide +kernel
      window := fun i hi => (read_initialMemory _ _ tiny).trans (if_pos hi)
      dcImag := by decide +kernel
      mapRes := by decide +kernel }
  cause := by decide +kernel
  causeRange := by decide +kernel
  faultPc := by decide +kernel

theorem witness_EveryStepKeepsTheInvariant :
    (ready tiny [.seq]).Inv ∧ (ready tiny [.seq]).initDone = true ∧ stepsTo (ready tiny [.seq]) fun t => t.initDone = true :=
  ⟨ready_inv, rfl, _, rfl, by decide +kernel⟩

theorem witness_EveryStepKeepsTheMemoryForm :
    (ready tiny [.land eight]).MemoryForm ∧ stepsTo (ready tiny [.land eight]) fun t => t.mem.CB = eight :=
  ⟨by decide +kernel, _, rfl, by decide +kernel⟩

theorem witness_HostReadsMappedAlignedWordsOnly :
    ∀ a ∈ [0x28, 0x3C, 0x68, 0xFFC, 0xB000, 0xFFFC], (0x28 ≤ a ∧ a ≤ 0x3F) ∨ (0x68 ≤ a ∧ a ≤ 0xFFF) ∨ 0xB000 ≤ a := by decide

theorem witness_HostReadsArrayElements :
    tiny.legal = true ∧ 31 < 1024 ∧ 31 < tiny.len .aw ∧ (ready tiny []).mem.read .aw 31 = some 0 ∧ tiny.len .ms ≤ 16 ∧
      (atReset tiny).cfg.legal = true ∧ (atReset tiny).mem.read .aw 31 = none ∧
      (0x7000, ArrayId.rb) ∈ [(0x1000, ArrayId.aw), (0x2000, .wt), (0x3000, .wf), (0x4000, .sc), (0x5000, .ms), (0x6000, .cb),
        (0x7000, .rb)] := by decide +kernel

theorem witness_HostReadsConstantMemories :
    tiny.legal = true ∧ 255 < 256 ∧ ((31 : Nat) : Int) < tiny.N ∧ tiny.N ≤ ((32 : Nat) : Int) ∧ tiny.PROG[8]? = some 0x04000001#32 ∧
      tiny.PROG[9]? = none := by decide +kernel

theorem witness_NextTurnIsListedOrDrawn :
    (ready tiny [.seq]).env.turns = .seq :: [] ∧ (ready tiny []).env.turns = [] := ⟨rfl, rfl⟩

theorem witness_EveryFiniteOrderOfTurnsIsARun :
    (ready tiny [.land eight, .seq, .reset, .land eight]).env.turns = [.land eight, .seq] ++ [.reset, .land eight] := rfl

end Sys2Proof.Tests
end

section
/-! SUPPORT. Scope (00_scope.md): the two fixed-point operations as plain integer arithmetic, the environment's choice of a turn, and the
configuration, which no command and no turn writes. -/

namespace Sys2Proof.Machine

/-! ### The Q15 product (R17) -/

/-- The Q15 product in integer arithmetic: floor division, then saturation. -/
theorem qmul_toInt (a b : Sample) : (qmul a b).toInt = clamp (a.toInt * b.toInt / 32768) (-32768) 32767 := by
  rw [qmul, sat16_toInt]
  rfl

theorem abs_toInt_le (a : Sample) : |a.toInt| ≤ 32768 := by
  have lower := BitVec.le_toInt a
  have upper := BitVec.toInt_lt (x := a)
  rw [abs_le]
  omega

/-- Only the lowest sample has the magnitude 32768. -/
theorem abs_toInt_le_of_ne_lowest {a : Sample} (h : a.toInt ≠ -32768) : |a.toInt| ≤ 32767 := by
  have lower := BitVec.le_toInt a
  have upper := BitVec.toInt_lt (x := a)
  rw [abs_le]
  omega

/-- One factor above the lowest sample keeps the product inside what the Q15 shift brings back to an `int16`. -/
theorem abs_mul_le_of_left_ne_lowest {a : Sample} (h : a.toInt ≠ -32768) (b : Sample) :
    |a.toInt * b.toInt| ≤ 32767 * 32768 := by
  rw [abs_mul]
  exact mul_le_mul (abs_toInt_le_of_ne_lowest h) (abs_toInt_le b) (abs_nonneg _) (by decide)

theorem abs_mul_le_of_not_both_lowest {a b : Sample} (h : ¬ (a.toInt = -32768 ∧ b.toInt = -32768)) :
    |a.toInt * b.toInt| ≤ 32767 * 32768 := by
  rcases not_and_or.mp h with ha | hb
  · exact abs_mul_le_of_left_ne_lowest ha b
  · rw [mul_comm]
    exact abs_mul_le_of_left_ne_lowest hb a

/-- Settles O26: away from the one pair the shifted product is inside the range of an `int16`, so the clamp is the identity. -/
theorem onlyOneQ15ProductSaturates : Obligations.OnlyOneQ15ProductSaturates := by
  intro a b
  constructor
  · intro hpair
    obtain ⟨lower, upper⟩ := abs_le.mp (abs_mul_le_of_not_both_lowest hpair)
    rw [qmul_toInt]
    exact clamp_of_mem (by omega) (by omega)
  · intro ha hb
    rw [qmul_toInt, ha, hb]
    decide

/-! ### The gain shift (R18) -/

/-- The gain shift in integer arithmetic: multiplication by `2^G`, then saturation. -/
theorem gshift_toInt (x : Sample) (G : Int) : (gshift x G).toInt = clamp (x.toInt * 2 ^ G.toNat) (-32768) 32767 :=
  sat16_toInt _

/-- A left shift followed by saturation never shrinks a positive sample. -/
theorem le_gshift_of_pos {x : Sample} (G : Int) (h : 0 < x.toInt) : x.toInt ≤ (gshift x G).toInt := by
  have upper := BitVec.toInt_lt (x := x)
  have grows : x.toInt ≤ x.toInt * 2 ^ G.toNat := le_mul_of_one_le_right h.le (one_le_pow₀ (by decide))
  rw [gshift_toInt]
  exact le_min (le_max_of_le_left grows) (by omega)

/-- Settles O24: the saturated product with `2^G`, and its monotonicity on positive samples. -/
theorem gainShiftSaturates : Obligations.GainShiftSaturates :=
  fun x G _ _ => ⟨gshift_toInt x G, le_gshift_of_pos G⟩

/-! ### The environment's choice (R7, R95) -/

/-- Settles O58: the two cases of the list of turns. -/
theorem nextTurnIsListedOrDrawn : Obligations.NextTurnIsListedOrDrawn :=
  fun _ => ⟨fun _ _ => State.nextTurn_of_listed, State.nextTurn_of_unlisted⟩

/-! ### The configuration (R5, R51) -/

/-- The gate keeps the configuration when the command behind it does. -/
theorem State.gated_cfg {s : State} (i : Instr) {effect : State → State} (h : (effect s).cfg = s.cfg) :
    (s.gated i effect).cfg = s.cfg := by
  unfold State.gated
  split
  · exact h
  · rfl

@[simp] theorem waitForData_cfg (s : State) : (waitForData s).cfg = s.cfg := by
  unfold waitForData
  split <;> rfl

@[simp] theorem jumpTo_cfg (target : Nat) (s : State) : (jumpTo target s).cfg = s.cfg := by
  unfold jumpTo
  split <;> rfl

@[simp] theorem startSource_cfg (srcOk : Bool) (s : State) : (startSource srcOk s).cfg = s.cfg := by
  unfold startSource
  split <;> rfl

@[simp] theorem bringUp_cfg (a : InitAnswer) (s : State) : (bringUp a s).cfg = s.cfg := by
  unfold bringUp
  split
  · simp
  · rfl

@[simp] theorem initBlock_cfg (a : InitAnswer) (s : State) : (initBlock a s).cfg = s.cfg := by
  unfold initBlock
  split
  · exact bringUp_cfg a s
  · rfl

@[simp] theorem land_cfg (block : List Sample) (s : State) : (land block s).cfg = s.cfg := by
  unfold land
  split <;> rfl

@[simp] theorem offer_cfg (block : List Sample) (s : State) : (offer block s).cfg = s.cfg := by
  unfold offer
  split
  · exact land_cfg block s
  · rfl

/-- No command writes the configuration. -/
@[simp] theorem after_cfg (i : Instr) (s : State) : (after i s).cfg = s.cfg := by
  cases i with
  | nop => rfl
  | init => exact initBlock_cfg s.answer s.useAnswer
  | waitdata => exact State.gated_cfg .waitdata (waitForData_cfg s)
  | halt => rfl
  | jmp target => exact jumpTo_cfg target s
  | ingest => exact State.gated_cfg .ingest rfl
  | window => exact State.gated_cfg .window rfl
  | rfft => exact State.gated_cfg .rfft rfl
  | cmag => exact State.gated_cfg .cmag rfl
  | map m => exact State.gated_cfg (.map m) rfl
  | compose => exact State.gated_cfg .compose rfl
  | advance => exact State.gated_cfg .advance rfl

/-- Settles O48, by what a step can do: the environment's choice leaves the configuration, and so does each of the turns. -/
theorem noStepChangesTheConfiguration : Obligations.NoStepChangesTheConfiguration := by
  intro s s' hstep
  obtain ⟨u, ⟨e, rfl⟩, hturn⟩ := step_cases hstep
  obtain ⟨_, rfl⟩ | ⟨_, _, rfl⟩ | ⟨_, w, why, _, _, rfl⟩ | ⟨_, w, i, _, _, rfl⟩ | ⟨block, rfl⟩ | ⟨_, rfl⟩ := hturn
  · exact State.withEnv_cfg s e
  · exact State.raise_cfg _ .pcRange _
  · exact State.raise_cfg _ .illegalCmd w
  · exact after_cfg i _
  · exact offer_cfg block _
  · exact State.hardReset_cfg _

end Sys2Proof.Machine
end

section
/-! SUPPORT. What one command leaves behind, said once for every command: a fault, a blocked WAITDATA, or the command's completed effect;
INIT has its own four ends. And the rule that carries an invariant through a step. -/

namespace Sys2Proof.Machine

/-! ### The shared branches -/

/-- WAITDATA past the gate is blocked or advances `pc` (R282). -/
theorem waitForData_cases (s : State) : waitForData s = s ∨ waitForData s = s.nextPc := ite_eq_or_eq _ _ _

/-- The ends of a landing: disabled, a whole block, or a wrong count (R141, R142). -/
theorem offer_cases (block : List Sample) (s : State) :
    offer block s = s ∨
    (s.srcRunning = true ∧ s.runState ≠ .faulted ∧
      (offer block s = s.raise .srcCount (BitVec.ofNat 32 block.length) ∨
        ∃ f, offer block s =
          { s.fill .cb f with newData := BitVec.ofInt 16 s.cfg.S, drops := s.dropsAfterLanding })) := by
  unfold offer
  split
  · next henabled =>
    obtain ⟨hsrc, hrun⟩ : s.srcRunning = true ∧ s.runState ≠ .faulted := by
      simpa [State.landingEnabled] using henabled
    refine .inr ⟨hsrc, hrun, ?_⟩
    by_cases hlen : (block.length : Int) = s.cfg.S
    · exact .inr ⟨_, land_eq hlen⟩
    · exact .inl (land_fault hlen)
  · exact .inl rfl

/-- The ends of INIT, in the order of its parts (R276 to R280). -/
theorem initBlock_cases (a : InitAnswer) (s : State) :
    (s.cfg.bad ≠ 0#32 ∧ initBlock a s = s.raise .cfgInvalid s.cfg.bad) ∨
    (s.cfg.bad = 0#32 ∧
      (initBlock a s = (s.emit [.dispInit s.cfg.W s.cfg.H]).raise .dispInitFail 0 ∨
       initBlock a s = ((s.emit [.dispInit s.cfg.W s.cfg.H, .dispClear]).cleared.emit
          [.srcConfig s.cfg.RATE s.cfg.S]).raise .srcInitFail 0 ∨
       initBlock a s = ((s.emit [.dispInit s.cfg.W s.cfg.H, .dispClear]).cleared.emit
          [.srcConfig s.cfg.RATE s.cfg.S, .srcStart]).started)) := by
  by_cases hbad : s.cfg.bad = 0#32
  · refine .inr ⟨hbad, ?_⟩
    obtain ⟨dispOk, srcOk⟩ := a
    simp only [initBlock, hbad, if_true]
    cases dispOk with
    | false => exact .inl rfl
    | true =>
      cases srcOk with
      | false => exact .inr (.inl rfl)
      | true => exact .inr (.inr rfl)
  · exact .inl ⟨hbad, if_neg hbad⟩

/-! ### The completed effect of a command -/

/-- The state a command other than INIT leaves when it neither faults nor blocks. INIT's ends are those of `initBlock_cases`. -/
def completed (i : Instr) (s : State) : State :=
  match i with
  | .nop | .waitdata => s.nextPc
  | .init => s
  | .halt => { s with runState := .halted }
  | .jmp target => { s with pc := BitVec.ofNat 16 target }
  | .ingest => ingestBlock s
  | .window => windowFrame s
  | .rfft => transformFrame s
  | .cmag => magnitudes s
  | .map m => mapImmediate m s
  | .compose => composeRow s
  | .advance => advanceScroll s

/-- A gated command ends in a fault, or as its effect does. -/
theorem State.gated_cases {s : State} {i : Instr} {effect : State → State}
    (heffect : effect s = s ∨ effect s = completed i s) :
    (∃ c info, s.gated i effect = s.raise c info) ∨ s.gated i effect = s ∨ s.gated i effect = completed i s := by
  cases hdone : s.initDone with
  | false => exact .inl ⟨_, _, State.gated_of_not_init hdone i effect⟩
  | true => exact .inr (State.gated_of_init hdone i effect ▸ heffect)

/-- The ends of a command other than INIT: a recorded fault, WAITDATA's blocked turn, or the completed effect. -/
theorem after_cases {i : Instr} (hi : i ≠ .init) (s : State) :
    (∃ c info, after i s = s.raise c info) ∨ after i s = s ∨ after i s = completed i s := by
  cases i with
  | nop => exact .inr (.inr rfl)
  | init => exact absurd rfl hi
  | waitdata => exact State.gated_cases (waitForData_cases s)
  | halt => exact .inr (.inr rfl)
  | jmp target =>
    simp only [after, jumpTo]
    split
    · exact .inl ⟨_, _, rfl⟩
    · exact .inr (.inr rfl)
  | ingest => exact State.gated_cases (.inr rfl)
  | window => exact State.gated_cases (.inr rfl)
  | rfft => exact State.gated_cases (.inr rfl)
  | cmag => exact State.gated_cases (.inr rfl)
  | map m => exact State.gated_cases (.inr rfl)
  | compose => exact State.gated_cases (.inr rfl)
  | advance => exact State.gated_cases (.inr rfl)

/-- What a fault keeps, and the completed effect of a command keeps, the command keeps. -/
theorem after_field {α : Type} (field : State → α) {i : Instr} (hi : i ≠ .init) {s : State}
    (hraise : ∀ c info, field (s.raise c info) = field s) (hcompleted : field (completed i s) = field s) :
    field (after i s) = field s := by
  obtain ⟨c, info, h⟩ | h | h := after_cases hi s
  · rw [h, hraise]
  · rw [h]
  · rw [h, hcompleted]

theorem completed_fault (i : Instr) (s : State) : (completed i s).fault = s.fault := by cases i <;> rfl

theorem completed_runState {i : Instr} (hi : i ≠ .halt) (s : State) : (completed i s).runState = s.runState := by
  cases i with
  | halt => exact absurd rfl hi
  | _ => rfl

/-- A command, INIT among them, ends in `raise`, or it leaves the fault record, and `RUNSTATE` too unless it is HALT (R32, R304). -/
theorem after_raises_or_keeps (i : Instr) (s : State) :
    (∃ u c info, after i s = State.raise u c info) ∨
    ((after i s).fault = s.fault ∧ (i ≠ .halt → (after i s).runState = s.runState)) := by
  by_cases hi : i = .init
  · subst hi
    obtain ⟨_, h⟩ | ⟨_, h | h | h⟩ := initBlock_cases s.answer s.useAnswer
    · exact .inl ⟨_, _, _, h⟩
    · exact .inl ⟨_, _, _, h⟩
    · exact .inl ⟨_, _, _, h⟩
    · exact .inr (by simp [after, h])
  · obtain ⟨c, info, h⟩ | h | h := after_cases hi s
    · exact .inl ⟨_, _, _, h⟩
    · rw [h]
      exact .inr ⟨rfl, fun _ => rfl⟩
    · rw [h]
      exact .inr ⟨completed_fault i s, fun hhalt => completed_runState hhalt s⟩

/-! ### Invariants -/

/-- A predicate that the environment's choices, a fetch's fault, the commands and the landings keep and that reset establishes is kept by
every step (R94). -/
theorem step_keeps {P : State → Prop} (henv : ∀ s e, P s → P (s.withEnv e))
    (hraise : ∀ s c info, s.runState = .running → P s → P (s.raise c info))
    (hafter : ∀ i s, s.runState = .running → P s → P (after i s))
    (hoffer : ∀ block s, P s → P (offer block s)) (hreset : ∀ s : State, P s.hardReset)
    {s s' : State} (hs : P s) (hstep : step s = .next s') : P s' := by
  obtain ⟨u, ⟨e, rfl⟩, hturn⟩ := step_cases hstep
  have hu := henv s e hs
  obtain ⟨_, rfl⟩ | ⟨hrun, _, rfl⟩ | ⟨hrun, w, why, _, _, rfl⟩ | ⟨hrun, w, i, _, _, rfl⟩ | ⟨block, rfl⟩ | ⟨_, rfl⟩ :=
    hturn
  · exact hu
  · exact hraise _ _ _ hrun hu
  · exact hraise _ _ _ hrun hu
  · exact hafter i _ hrun hu
  · exact hoffer block _ hu
  · exact hreset _

end Sys2Proof.Machine
end

section
/-! SUPPORT. State (10_state.md R67): the invariant of the block. Its part on the fault record and its part on an initialised block are
carried through a step apart. -/

namespace Sys2Proof.Machine

/-! ### A legal configuration (R276) -/

/-- A failed check sets its bit of INIT's mask. -/
theorem eq_true_of_badBit {k : Nat} (hk : k < 8) {ok : Bool} (h : badBit k ok = 0#32) : ok = true := by
  have hset : ∀ k < 8, badBit k false ≠ 0#32 := by decide
  cases ok with
  | true => rfl
  | false => exact absurd h (hset k hk)

theorem legal_iff (c : Config) :
    c.legal = true ↔ c.okN = true ∧ c.okS = true ∧ c.okG = true ∧ c.okW = true ∧ c.okH = true ∧ c.okSKIP = true ∧
      c.okSMAX = true ∧ c.okRATE = true := by
  simp only [Config.legal, Bool.and_eq_true, and_assoc]

/-- INIT's mask is 0 only for a configuration that passes every check. -/
theorem legal_of_bad_eq_zero {c : Config} (h : c.bad = 0#32) : c.legal = true := by
  simp only [Config.bad, BitVec.or_eq_zero_iff, and_assoc] at h
  obtain ⟨hN, hS, hG, hW, hH, hSKIP, hSMAX, hRATE⟩ := h
  exact (legal_iff c).mpr ⟨eq_true_of_badBit (by decide) hN, eq_true_of_badBit (by decide) hS,
    eq_true_of_badBit (by decide) hG, eq_true_of_badBit (by decide) hW, eq_true_of_badBit (by decide) hH,
    eq_true_of_badBit (by decide) hSKIP, eq_true_of_badBit (by decide) hSMAX, eq_true_of_badBit (by decide) hRATE⟩

theorem N_mem_of_legal {c : Config} (h : c.legal = true) : c.N ∈ [(32 : Int), 64, 128, 256, 512, 1024] :=
  of_decide_eq_true ((legal_iff c).mp h).1

theorem H_range_of_legal {c : Config} (h : c.legal = true) : 1 ≤ c.H ∧ c.H ≤ 1024 := by
  obtain ⟨_, _, _, _, hH, _⟩ := (legal_iff c).mp h
  exact of_decide_eq_true hH

/-- Element 1 of `SC` exists in a legal configuration. -/
theorem one_lt_len_sc_of_legal {c : Config} (h : c.legal = true) : 1 < c.len .sc := by
  have hN := N_mem_of_legal h
  simp only [List.mem_cons, List.not_mem_nil, or_false] at hN
  simp only [Config.len]
  omega

/-! ### Values the commands write -/

/-- A magnitude is saturated to [0, 32767] (R186). -/
theorem magnitude_toInt_range (re im : Int) : 0 ≤ (magnitude re im).toInt ∧ (magnitude re im).toInt ≤ 32767 := by
  unfold magnitude
  rw [BitVec.toInt_ofNat', Int.bmod_def]
  omega

/-- The entry `TW[3N/4]`, the cosine of 270 degrees, is 0 at every supported size (R172). -/
theorem twiddle_three_quarters {c : Config} (h : c.legal = true) :
    c.twiddle (3 * c.N.toNat / 4 % c.N.toNat) = 0#16 := by
  have hN := N_mem_of_legal h
  simp only [List.mem_cons, List.not_mem_nil, or_false] at hN
  unfold Config.twiddle
  obtain hN | hN | hN | hN | hN | hN := hN <;> rw [hN] <;> decide +kernel

/-- The imaginary accumulator of bin 0 is 0: every term has the factor `TW[3N/4]` (R183). -/
theorem accIm_zero {s : State} (h : s.cfg.legal = true) : s.accIm 0 = 0 := by
  simp [State.accIm, State.correlate, twiddle_three_quarters h]

theorem scaleBin_zero (s : State) : s.scaleBin 0 = 0#16 := by
  have hpow : (2 : Int) ^ (15 + s.cfg.L - 1) / 2 ^ (15 + s.cfg.L) = 0 :=
    Int.ediv_eq_zero_of_lt (by positivity) (pow_lt_pow_right₀ (by decide) (by omega))
  simp only [State.scaleBin, rshr, asr, zero_add, hpow]
  decide

/-- RFFT writes 0 to `SC[1]` (R183). -/
theorem spectrum_one {s : State} (h : s.cfg.legal = true) : s.spectrum 1 = 0#16 := by
  simp [State.spectrum, accIm_zero h, scaleBin_zero]

/-- `MAPRES[31:24]` is 0 in every result of MAP (R225). -/
theorem mapResult_top (idx : BitVec 8) (colour : Colour) : (mapResult idx colour).extractLsb' 24 8 = 0#8 := by
  ext j hj
  simp [mapResult, BitVec.getLsbD_of_ge idx (24 + j - 16) (by omega), BitVec.getLsbD_of_ge colour (24 + j) (by omega)]

/-- The row after the cursor is below `H` (R247). -/
theorem nextRow_lt {s : State} (h : s.cfg.legal = true) : (s.nextRow.toNat : Int) < s.cfg.H := by
  obtain ⟨hlow, hhigh⟩ := H_range_of_legal h
  have hmod : (s.cursor.toNat + 1) % s.cfg.H.toNat < s.cfg.H.toNat := Nat.mod_lt _ (by omega)
  rw [State.nextRow, BitVec.toNat_ofNat]
  omega

/-! ### The initialised block -/

/-- INIT's tables and clears meet every item of R67. -/
theorem State.Ready.of_cleared {s t : State} (hlegal : s.cfg.legal = true) (hcfg : t.cfg = s.cfg)
    (hmem : t.mem = initialMemory s.cfg) (hnew : t.newData = 0) (hcursor : t.cursor = 0) (hlast : t.lastRow = 0)
    (hmap : t.mapRes = 0) : t.Ready := by
  obtain ⟨hlow, _⟩ := H_range_of_legal hlegal
  refine ⟨hcfg ▸ hlegal, fun a => ?_, .inl hnew, ?_, ?_, fun k hk => ?_, fun i hi => ?_, ?_, ?_⟩
  · simp [State.Full, hmem, hcfg, initialCells]
  · rw [hcursor, hcfg]
    exact lt_of_lt_of_le (by decide) hlow
  · rw [hlast, hcfg]
    exact lt_of_lt_of_le (by decide) hlow
  · rw [hcfg] at hk
    have hzero : t.mem.elem .ms k = 0#16 := Memory.elem_of_read (by rw [hmem, read_initialMemory, if_pos hk]; rfl)
    rw [State.val, hzero]
    decide
  · rw [hcfg] at hi ⊢
    rw [hmem, read_initialMemory, if_pos hi]
    rfl
  · rw [hmem, read_initialMemory, if_pos (one_lt_len_sc_of_legal hlegal)]
    rfl
  · rw [hmap]
    rfl

/-- Filling an array but `WT` keeps R67 when `MS` gets magnitudes and `SC[1]` gets 0. -/
theorem State.Ready.fill {s : State} (h : s.Ready) {a : ArrayId} {f : Nat → Sample} (hwt : a ≠ .wt)
    (hms : a = .ms → ∀ k, 0 ≤ (f k).toInt ∧ (f k).toInt ≤ 32767) (hsc : a = .sc → f 1 = 0#16) : (s.fill a f).Ready :=
  { h with
    full := fun b => by
      by_cases hb : b = a
      · subst hb
        simp [State.Full]
      · simpa [State.Full, Memory.cells_fill_other _ _ _ hb] using h.full b
    magnitudes := fun k hk => by
      by_cases ha : a = .ms
      · subst ha
        rw [State.val, State.fill_mem, Memory.elem_fill_same _ _ (s.cfg.len .ms) _ _ hk]
        exact hms rfl k
      · rw [State.val, State.fill_mem, Memory.elem_fill_other _ _ _ _ (Ne.symm ha)]
        exact h.magnitudes k hk
    window := fun i hi => by
      rw [State.fill_mem, Memory.read_fill_other _ _ _ _ hwt.symm]
      exact h.window i hi
    dcImag := by
      by_cases ha : a = .sc
      · subst ha
        rw [State.fill_mem, Memory.read_fill_same, if_pos (one_lt_len_sc_of_legal h.legal), hsc rfl]
      · rw [State.fill_mem, Memory.read_fill_other _ _ _ _ (Ne.symm ha)]
        exact h.dcImag }

/-- A completed command keeps R67's list. -/
theorem State.Ready.completed {s : State} (h : s.Ready) (i : Instr) : (completed i s).Ready := by
  cases i with
  | nop | waitdata | init | halt | jmp => exact { h with }
  | ingest => exact { h.fill (a := .aw) (f := shiftedIn s) nofun nofun nofun with newData := .inl rfl }
  | window => exact { h.fill (a := .wf) (f := fun i => qmul (s.mem.elem .aw i) (s.mem.elem .wt i)) nofun nofun nofun with }
  | rfft => exact { h.fill (a := .sc) (f := s.spectrum) nofun nofun fun _ => spectrum_one h.legal with }
  | cmag =>
    exact { h.fill (a := .ms) (f := fun k => magnitude (s.val .sc (2 * k)) (s.val .sc (2 * k + 1))) nofun
      (fun _ _ => magnitude_toInt_range _ _) nofun with }
  | map m => exact { h with mapRes := mapResult_top _ _ }
  | compose => exact { h.fill (a := .rb) (f := rowPixel s) nofun nofun nofun with }
  | advance => exact { h with cursor := nextRow_lt h.legal, lastRow := h.cursor }

/-- The part of the invariant on the two flags and the initialised block (R33, R34, R67). -/
structure State.Initialised (s : State) : Prop where
  flags : s.srcRunning = s.initDone
  ready : s.initDone = true → s.Ready

theorem State.Initialised.withEnv {s : State} (h : s.Initialised) (e : Env) : (s.withEnv e).Initialised :=
  ⟨h.flags, fun hdone => { h.ready hdone with }⟩

theorem State.Initialised.emit {s : State} (h : s.Initialised) (es : List Event) : (s.emit es).Initialised :=
  ⟨h.flags, fun hdone => { h.ready hdone with }⟩

theorem State.Initialised.raise {s : State} (h : s.Initialised) (c : Cause) (info : Word) : (s.raise c info).Initialised :=
  ⟨h.flags, fun hdone => { h.ready hdone with }⟩

theorem State.Initialised.initBlock {s : State} (h : s.Initialised) (a : InitAnswer) : (initBlock a s).Initialised := by
  obtain ⟨_, heq⟩ | ⟨hbad, heq | heq | heq⟩ := initBlock_cases a s
  · rw [heq]
    exact h.raise _ _
  · rw [heq]
    exact (h.emit _).raise _ _
  · rw [heq]
    exact ⟨h.flags, fun _ => .of_cleared (legal_of_bad_eq_zero hbad) rfl rfl rfl rfl rfl rfl⟩
  · rw [heq]
    exact ⟨rfl, fun _ => .of_cleared (legal_of_bad_eq_zero hbad) rfl rfl rfl rfl rfl rfl⟩

/-- No command but INIT writes the two flags (R61). -/
theorem after_flags {i : Instr} (hi : i ≠ .init) (s : State) :
    (after i s).initDone = s.initDone ∧ (after i s).srcRunning = s.srcRunning :=
  ⟨after_field State.initDone hi (fun _ _ => rfl) (by cases i <;> rfl),
    after_field State.srcRunning hi (fun _ _ => rfl) (by cases i <;> rfl)⟩

theorem State.Initialised.after {s : State} (h : s.Initialised) (i : Instr) : (after i s).Initialised := by
  by_cases hi : i = .init
  · subst hi
    exact (h.withEnv s.useAnswer.env).initBlock s.answer
  · obtain ⟨hdone, hsrc⟩ := after_flags hi s
    refine ⟨by rw [hdone, hsrc, h.flags], fun hinit => ?_⟩
    have hready := h.ready (hdone ▸ hinit)
    obtain ⟨c, info, heq⟩ | heq | heq := after_cases hi s
    · rw [heq]
      exact { hready with }
    · rwa [heq]
    · rw [heq]
      exact hready.completed i

theorem State.Initialised.offer {s : State} (h : s.Initialised) (block : List Sample) : (offer block s).Initialised := by
  obtain heq | ⟨_, _, heq | ⟨f, heq⟩⟩ := offer_cases block s
  · rwa [heq]
  · rw [heq]
    exact h.raise _ _
  · rw [heq]
    exact ⟨h.flags, fun hdone => { (h.ready hdone).fill (a := .cb) (f := f) nofun nofun nofun with newData := .inr rfl }⟩

theorem State.Initialised.hardReset (s : State) : s.hardReset.Initialised := ⟨rfl, nofun⟩

/-! ### The fault record -/

/-- The part of the invariant on the fault record (R304, R305, R306). -/
structure State.FaultRecorded (s : State) : Prop where
  cause : s.fault.cause = 0#8 ↔ s.runState ≠ .faulted
  causeRange : s.fault.cause.toNat ≤ 7
  faultPc : s.runState = .faulted → s.fault.pc = s.pc

theorem Cause.code_range (c : Cause) : c.code ≠ 0#8 ∧ c.code.toNat ≤ 7 := by cases c <;> decide

/-- Whatever was recorded before, a fault records its own cause and the `pc` it stops at. -/
theorem State.FaultRecorded.raise (s : State) (c : Cause) (info : Word) : (s.raise c info).FaultRecorded where
  cause := by simp [c.code_range.1]
  causeRange := c.code_range.2
  faultPc := fun _ => rfl

/-- A block that is not faulted may move on while its record stays. -/
theorem State.FaultRecorded.of_fault_eq {s t : State} (h : s.FaultRecorded) (hs : s.runState ≠ .faulted)
    (ht : t.runState ≠ .faulted) (hfault : t.fault = s.fault) : t.FaultRecorded where
  cause := by simp [hfault, h.cause.mpr hs, ht]
  causeRange := hfault ▸ h.causeRange
  faultPc := fun hfaulted => absurd hfaulted ht

theorem State.FaultRecorded.after {s : State} (h : s.FaultRecorded) (hrun : s.runState = .running) (i : Instr) :
    (after i s).FaultRecorded := by
  obtain ⟨u, c, info, heq⟩ | ⟨hfault, hkeeps⟩ := after_raises_or_keeps i s
  · rw [heq]
    exact .raise u c info
  · refine h.of_fault_eq (by simp [hrun]) ?_ hfault
    by_cases hi : i = .halt
    · subst hi
      exact nofun
    · simp [hkeeps hi, hrun]

theorem State.FaultRecorded.offer {s : State} (h : s.FaultRecorded) (block : List Sample) : (offer block s).FaultRecorded := by
  obtain heq | ⟨_, hrun, heq | ⟨f, heq⟩⟩ := offer_cases block s
  · rwa [heq]
  · rw [heq]
    exact .raise _ _ _
  · rw [heq]
    exact h.of_fault_eq hrun hrun rfl

theorem State.FaultRecorded.hardReset (s : State) : s.hardReset.FaultRecorded where
  cause := by simp
  causeRange := by simp
  faultPc := nofun

/-! ### The whole invariant -/

/-- The invariant is its two parts. -/
theorem State.inv_iff (s : State) : s.Inv ↔ s.Initialised ∧ s.FaultRecorded :=
  ⟨fun h => ⟨⟨h.flags, h.ready⟩, ⟨h.cause, h.causeRange, h.faultPc⟩⟩,
    fun ⟨h, h'⟩ => ⟨h.flags, h.ready, h'.cause, h'.causeRange, h'.faultPc⟩⟩

/-- Settles O50: each part of the invariant is kept by each thing a step can do. -/
theorem everyStepKeepsTheInvariant : Obligations.EveryStepKeepsTheInvariant := by
  intro s s' hinv hstep
  rw [State.inv_iff] at hinv ⊢
  refine step_keeps (P := fun s => s.Initialised ∧ s.FaultRecorded) ?_ ?_ ?_ ?_ ?_ hinv hstep
  · exact fun s e ⟨hinit, hfault⟩ => ⟨hinit.withEnv e, { hfault with }⟩
  · exact fun s c info _ ⟨hinit, _⟩ => ⟨hinit.raise c info, .raise s c info⟩
  · exact fun i s hrun ⟨hinit, hfault⟩ => ⟨hinit.after i, hfault.after hrun i⟩
  · exact fun block s ⟨hinit, hfault⟩ => ⟨hinit.offer block, hfault.offer block⟩
  · exact fun s => ⟨.hardReset s, .hardReset s⟩

/-- Settles O51: nothing is initialised and no cause is recorded. -/
theorem invariantHoldsAfterReset : Obligations.InvariantHoldsAfterReset :=
  fun c e => (State.inv_iff _).mpr ⟨.hardReset (State.resetOf c e), .hardReset (State.resetOf c e)⟩

end Sys2Proof.Machine
end

section
/-! SUPPORT. State (10_state.md): the canonical form of the arrays (R63), reset (R62), what only reset undoes (R32 to R34), the access
matrix of the commands (R61), and STATUS (R64). -/

namespace Sys2Proof.Machine

/-! ### The canonical form of the data arrays (R63) -/

theorem wf_completed {s : State} (h : s.MemoryForm) (i : Instr) : Memory.wf s.cfg (completed i s).mem = true := by
  cases i with
  | nop | waitdata | init | halt | jmp | map | advance => exact h
  | ingest | window | rfft | cmag | compose => exact Memory.wf_fill _ _ _ s.cfg h

theorem State.MemoryForm.initBlock {s : State} (h : s.MemoryForm) (a : InitAnswer) :
    Memory.wf s.cfg (initBlock a s).mem = true := by
  obtain ⟨_, heq⟩ | ⟨_, heq | heq | heq⟩ := initBlock_cases a s
  · rwa [heq]
  · rwa [heq]
  · rw [heq]
    exact Memory.wf_initial s.cfg
  · rw [heq]
    exact Memory.wf_initial s.cfg

theorem State.MemoryForm.after {s : State} (h : s.MemoryForm) (i : Instr) : (after i s).MemoryForm := by
  rw [State.MemoryForm, after_cfg]
  by_cases hi : i = .init
  · subst hi
    exact State.MemoryForm.initBlock (s := s.useAnswer) h s.answer
  · obtain ⟨c, info, heq⟩ | heq | heq := after_cases hi s
    · rwa [heq]
    · rwa [heq]
    · rw [heq]
      exact wf_completed h i

theorem State.MemoryForm.offer {s : State} (h : s.MemoryForm) (block : List Sample) : (offer block s).MemoryForm := by
  obtain heq | ⟨_, _, heq | ⟨f, heq⟩⟩ := offer_cases block s
  · rwa [heq]
  · rwa [heq]
  · rw [heq]
    exact Memory.wf_fill _ .cb f s.cfg h

/-- Settles O52: arrays are written only by `fill` and by INIT's tables, and emptied only by reset. -/
theorem everyStepKeepsTheMemoryForm : Obligations.EveryStepKeepsTheMemoryForm :=
  fun _ _ hform hstep => step_keeps (P := State.MemoryForm) (fun _ _ h => h) (fun _ _ _ _ h => h)
    (fun i _ _ h => State.MemoryForm.after h i) (fun block _ h => State.MemoryForm.offer h block)
    (fun s => Memory.wf_unspecified s.cfg) hform hstep

theorem Memory.read_unspecified (a : ArrayId) (i : Nat) : Memory.unspecified.read a i = none := by cases a <;> rfl

/-- Settles O53: reset leaves every array empty. -/
theorem memoryFormHoldsAfterReset : Obligations.MemoryFormHoldsAfterReset :=
  fun c _ => ⟨Memory.wf_unspecified c, Memory.read_unspecified⟩

/-! ### Reset (R62, R340) -/

/-- Settles O46: the turn is `hardReset` of a state that differs in the environment only. -/
theorem resetRestoresTheResetState : Obligations.ResetRestoresTheResetState := by
  intro s e hturn
  refine ⟨(s.withEnv e).hardReset, step_of_turn hturn, ?_⟩
  simp [Memory.read_unspecified]

/-! ### What only reset undoes (R32, R33, R34) -/

/-- No command clears a flag: INIT only sets them. -/
theorem after_keeps_flags (i : Instr) (s : State) :
    (s.initDone = true → (after i s).initDone = true) ∧ (s.srcRunning = true → (after i s).srcRunning = true) := by
  by_cases hi : i = .init
  · subst hi
    obtain ⟨_, h⟩ | ⟨_, h | h | h⟩ := initBlock_cases s.answer s.useAnswer <;> simp [after, h]
  · obtain ⟨hdone, hsrc⟩ := after_flags hi s
    simp [hdone, hsrc]

/-- A landing writes no flag, and moves `RUNSTATE` only into FAULTED. -/
theorem offer_flags (block : List Sample) (s : State) :
    (offer block s).initDone = s.initDone ∧ (offer block s).srcRunning = s.srcRunning ∧
      ((offer block s).runState = s.runState ∨ (offer block s).runState = .faulted) := by
  obtain h | ⟨_, _, h | ⟨f, h⟩⟩ := offer_cases block s <;> simp [h]

/-- Settles O47: SEQ acts in RUNNING only, where the clauses on FAULTED and HALTED are void, and a landing moves only into FAULTED. -/
theorem onlyResetLeavesTheStoppedStates : Obligations.OnlyResetLeavesTheStoppedStates := by
  intro s s' hstep hnoreset
  obtain ⟨u, ⟨e, rfl⟩, hturn⟩ := step_cases hstep
  obtain ⟨_, rfl⟩ | ⟨hrun, _, rfl⟩ | ⟨hrun, w, why, _, _, rfl⟩ | ⟨hrun, w, i, _, _, rfl⟩ | ⟨block, rfl⟩ | ⟨hreset, _⟩ :=
    hturn
  · exact ⟨id, fun h => by simp [h], id, id⟩
  · simp
  · simp
  · obtain ⟨hdone, hsrc⟩ := after_keeps_flags i (s.withEnv e)
    rw [State.withEnv_runState] at hrun
    exact ⟨by simp [hrun], by simp [hrun], hdone, hsrc⟩
  · obtain ⟨hdone, hsrc, hstate⟩ := offer_flags block (s.withEnv e)
    rw [hdone, hsrc]
    refine ⟨fun h => ?_, fun h => ?_, id, id⟩
    · exact hstate.elim (fun hsame => hsame.trans h) id
    · obtain hsame | hfaulted := hstate
      · simp [hsame, h]
      · simp [hfaulted]
  · exact absurd hreset hnoreset

/-! ### The access matrix (R61) -/

/-- The command beside INIT in whose column the array is written. -/
def writerOf : ArrayId → Option Instr
  | .aw => some .ingest
  | .wf => some .window
  | .sc => some .rfft
  | .ms => some .cmag
  | .rb => some .compose
  | .wt | .cb => none

/-- A command reaches no array but the one in its column. -/
theorem after_read {i : Instr} (hi : i ≠ .init) {a : ArrayId} (ha : writerOf a ≠ some i) (s : State) (k : Nat) :
    (after i s).mem.read a k = s.mem.read a k := by
  refine after_field (fun t => t.mem.read a k) hi (fun _ _ => rfl) ?_
  cases i with
  | nop | init | waitdata | halt | jmp | map | advance => rfl
  | ingest | window | rfft | cmag | compose => exact Memory.read_fill_other _ _ _ _ fun h => ha (h ▸ rfl)

/-- An array of one column is out of reach of every command outside that column. -/
theorem after_read_of_writer {a : ArrayId} {j : Instr} (ha : writerOf a = some j) {i : Instr} (hi : i ∉ [Instr.init, j])
    (s : State) (k : Nat) : (after i s).mem.read a k = s.mem.read a k := by
  simp only [List.mem_cons, List.not_mem_nil, or_false, not_or] at hi
  obtain ⟨hinit, hj⟩ := hi
  exact after_read hinit (by simpa [ha] using Ne.symm hj) s k

theorem after_newData {i : Instr} (hinit : i ≠ .init) (hi : i ≠ .ingest) (s : State) :
    (after i s).newData = s.newData := by
  refine after_field State.newData hinit (fun _ _ => rfl) ?_
  cases i with
  | ingest => exact absurd rfl hi
  | _ => rfl

theorem after_mapRes {i : Instr} (hinit : i ≠ .init) (hi : ∀ m, i ≠ .map m) (s : State) :
    (after i s).mapRes = s.mapRes := by
  refine after_field State.mapRes hinit (fun _ _ => rfl) ?_
  cases i with
  | map m => exact absurd rfl (hi m)
  | _ => rfl

/-- Neither the source's counter nor the environment is in the column of a command other than INIT. -/
theorem after_drops_env {i : Instr} (hi : i ≠ .init) (s : State) : (after i s).drops = s.drops ∧ (after i s).env = s.env :=
  ⟨after_field State.drops hi (fun _ _ => rfl) (by cases i <;> rfl),
    after_field State.env hi (fun _ _ => rfl) (by cases i <;> rfl)⟩

/-- The registers of the display and the trace are ADVANCE's alone. -/
theorem after_display {i : Instr} (hinit : i ≠ .init) (hi : i ≠ .advance) (s : State) :
    (after i s).cursor = s.cursor ∧ (after i s).lastRow = s.lastRow ∧ (after i s).frames = s.frames ∧
      (after i s).events = s.events := by
  have h := after_field (fun t : State => (t.cursor, t.lastRow, t.frames, t.events)) hinit (s := s) (fun _ _ => rfl) (by
    cases i with
    | advance => exact absurd rfl hi
    | _ => rfl)
  simpa using h

/-- Events are only appended (R60). -/
theorem after_events (i : Instr) (s : State) : ∃ es, (after i s).events = s.events ++ es := by
  by_cases hinit : i = .init
  · subst hinit
    obtain ⟨_, h⟩ | ⟨_, h | h | h⟩ := initBlock_cases s.answer s.useAnswer <;> simp [after, h]
  · by_cases hi : i = .advance
    · subst hi
      obtain ⟨c, info, h⟩ | h | h := after_cases hinit s
      · exact ⟨[], by simp [h]⟩
      · exact ⟨[], by simp [h]⟩
      · exact ⟨s.rowEvents, by rw [h]; rfl⟩
    · obtain ⟨_, _, _, h⟩ := after_display hinit hi s
      exact ⟨[], by simp [h]⟩

/-- Settles O49: column by column, from what each command writes. -/
theorem commandsWriteOnlyTheirColumn : Obligations.CommandsWriteOnlyTheirColumn := by
  intro i s t hexec
  obtain rfl : after i s = t := by simpa [exec_eq] using hexec
  refine ⟨after_cfg i s, fun hi => ?_, fun hi => ?_, fun hi => after_read_of_writer rfl hi s,
    fun hi => after_read_of_writer rfl hi s, fun hi => after_read_of_writer rfl hi s,
    fun hi => after_read_of_writer rfl hi s, fun hinit hi => after_mapRes hinit hi s, fun hi => ?_, after_events i s, ?_, ?_⟩
  · obtain ⟨hdone, hsrc⟩ := after_flags hi s
    obtain ⟨hdrops, henv⟩ := after_drops_env hi s
    exact ⟨hdone, hsrc, hdrops, henv, after_read hi (by simp [writerOf]) s, after_read hi (by simp [writerOf]) s⟩
  · obtain ⟨hinit, hingest⟩ : i ≠ .init ∧ i ≠ .ingest := by simpa using hi
    exact ⟨after_newData hinit hingest s, after_read_of_writer rfl hi s⟩
  · obtain ⟨hinit, hadvance⟩ : i ≠ .init ∧ i ≠ .advance := by simpa using hi
    exact after_display hinit hadvance s
  · obtain ⟨u, c, info, h⟩ | ⟨hfault, _⟩ := after_raises_or_keeps i s
    · exact fun _ => by rw [h, State.raise_runState]
    · exact fun hne => absurd hfault hne
  · obtain ⟨u, c, info, h⟩ | ⟨_, hkeeps⟩ := after_raises_or_keeps i s
    · exact fun _ _ => by rw [h, State.raise_runState]
    · exact fun hhalt hne => absurd (hkeeps hhalt) hne

/-! ### STATUS (R64) -/

/-- The single-bit fields of STATUS. -/
theorem status_flag_bits (s : State) :
    s.status.getLsbD 0 = s.initDone ∧ s.status.getLsbD 1 = s.isHalted ∧ s.status.getLsbD 2 = s.isFaulted ∧
      s.status.getLsbD 3 = s.waiting ∧ s.status.getLsbD 4 = s.srcRunning := by
  simp [State.status]

/-- Above its flags STATUS holds CAUSE in bits 15:8 and zeros. -/
theorem status_bit_of_five_le (s : State) {j : Nat} (hj : 5 ≤ j) (hj' : j < 32) :
    s.status.getLsbD j = (decide (8 ≤ j) && s.fault.cause.getLsbD (j - 8)) := by
  have flag (b : Bool) (k : Nat) (hk : k ≤ 4) : ((BitVec.ofBool b).setWidth 32 <<< k).getLsbD j = false := by
    simp [show j - k ≠ 0 by omega]
  have noFlag : ((BitVec.ofBool s.initDone).setWidth 32).getLsbD j = false := by simp [show j ≠ 0 by omega]
  simp only [State.status, BitVec.getLsbD_or, flag _ 4 (by omega), flag _ 3 (by omega), flag _ 2 (by omega),
    flag _ 1 (by omega), noFlag, Bool.or_false]
  by_cases h : 8 ≤ j
  · simp [h, hj', show ¬ j < 8 by omega]
  · simp [h, show j < 8 by omega]

/-- The reserved fields of STATUS, and CAUSE. -/
theorem status_wide_fields (s : State) :
    s.status.extractLsb' 5 3 = 0 ∧ s.status.extractLsb' 8 8 = s.fault.cause ∧ s.status.extractLsb' 16 16 = 0 := by
  refine ⟨?_, ?_, ?_⟩
  · ext j hj
    simp [status_bit_of_five_le s (j := 5 + j) (by omega) (by omega), show ¬ 8 ≤ 5 + j by omega]
  · ext j hj
    simp [status_bit_of_five_le s (j := 8 + j) (by omega) (by omega), BitVec.getLsbD_eq_getElem hj]
  · ext j hj
    simp [status_bit_of_five_le s (j := 16 + j) (by omega) (by omega), BitVec.getLsbD_of_ge s.fault.cause (16 + j - 8) (by omega)]

theorem status_resetOf (c : Config) (e : Env) : (State.resetOf c e).status = 0#32 := by
  have hwaiting : (State.resetOf c e).waiting = false := rfl
  have hhalted : (State.resetOf c e).isHalted = false := rfl
  have hfaulted : (State.resetOf c e).isFaulted = false := rfl
  rw [State.status, hwaiting, hhalted, hfaulted]
  simp [State.resetOf]

theorem waiting_iff (s : State) :
    s.waiting = true ↔ s.runState = .running ∧ s.initDone = true ∧ s.cfg.PROG[s.pc.toNat]? = some 0x02000000#32 ∧
      s.newData = 0#16 := by
  simp [State.waiting, State.fetch, and_assoc]

/-- Settles O54: each field of the word is the field of the state. -/
theorem statusHasTheFieldsOfTheState : Obligations.StatusHasTheFieldsOfTheState := by
  refine ⟨status_resetOf, fun s => ?_⟩
  obtain ⟨hinit, hhalted, hfaulted, hwaiting, hsrc⟩ := status_flag_bits s
  exact ⟨hinit, by rw [hhalted, State.isHalted, beq_iff_eq], by rw [hfaulted, State.isFaulted, beq_iff_eq],
    by rw [hwaiting, waiting_iff], hsrc, status_wide_fields s⟩

end Sys2Proof.Machine
end

section
/-! SUPPORT. Memory (20_memory.md): the host port's register page and element windows (R83 to R87), and a run as the turns it takes
(R95), whose effects do not depend on which turns are listed behind them. -/

namespace Sys2Proof.Machine

/-! ### The host port (R85) -/

/-- An aligned 32-bit read answers the word mapped at the address, and BUSERR where there is none. -/
theorem memRead_of_aligned (s : State) (draw : Nat) {addr : BitVec 16} (h : addr.toNat % 4 = 0) :
    s.memRead draw addr 4 = (s.mapped draw addr.toNat).elim .busErr .ok := by
  unfold State.memRead
  rw [if_neg (not_not.mpr rfl), if_neg (not_not.mpr h)]
  cases s.mapped draw addr.toNat <;> rfl

theorem memRead_of_narrow (s : State) (draw : Nat) (addr : BitVec 16) {size : Nat} (h : size ≠ 4) :
    s.memRead draw addr size = .busErr := if_pos h

theorem memRead_of_misaligned (s : State) (draw : Nat) {addr : BitVec 16} (h : addr.toNat % 4 ≠ 0) (size : Nat) :
    s.memRead draw addr size = .busErr := by
  simp [State.memRead, h]

theorem memRead_of_unmapped {s : State} {draw : Nat} {addr : BitVec 16} (h : s.mapped draw addr.toNat = none) (size : Nat) :
    s.memRead draw addr size = .busErr := by
  simp [State.memRead, h]

/-! ### The register page (R83) -/

theorem mapped_register (s : State) (draw : Nat) {addr : Nat} (h : addr < 0x1000) : s.mapped draw addr = s.register addr :=
  if_pos h

theorem memRead_register {s : State} {addr : BitVec 16} {w : Word} (draw : Nat)
    (h : addr.toNat % 4 = 0 ∧ addr.toNat < 0x1000) (hreg : s.register addr.toNat = some w) :
    s.memRead draw addr 4 = .ok w := by
  obtain ⟨haligned, hpage⟩ := h
  rw [memRead_of_aligned s draw haligned, mapped_register s draw hpage, hreg]
  rfl

/-- No register stands between MAPRES and CFG_N, nor behind the last one. -/
theorem register_of_unmapped (s : State) {addr : Nat} (h : (0x28 ≤ addr ∧ addr ≤ 0x3F) ∨ 0x68 ≤ addr) :
    s.register addr = none := by
  unfold State.register
  split
  case h_21 => rfl
  all_goals omega

/-! ### The element windows (R84, R87) -/

theorem arrayWindow_of_eight_le {window : Nat} (h : 8 ≤ window) : arrayWindow window = none := by
  obtain ⟨k, rfl⟩ := Nat.exists_eq_add_of_le' h
  rfl

theorem constantWord_of_eleven_le (s : State) {window : Nat} (h : 11 ≤ window) (i : Nat) : s.constantWord window i = none := by
  obtain ⟨k, rfl⟩ := Nat.exists_eq_add_of_le' h
  rfl

/-- Past the register page an address is read by its window, as an array's where the window is an array's. -/
theorem mapped_of_arrayWindow (s : State) (draw : Nat) {addr : Nat} {a : ArrayId} (h : 0x1000 ≤ addr)
    (ha : arrayWindow (addr / 0x1000) = some a) : s.mapped draw addr = s.arrayWord draw a (addr % 0x1000 / 4) := by
  unfold State.mapped
  rw [if_neg (not_lt.mpr h), ha]

/-- From window 8 on no window is an array's. -/
theorem mapped_of_constant (s : State) (draw : Nat) {addr : Nat} (h : 0x8000 ≤ addr) :
    s.mapped draw addr = s.constantWord (addr / 0x1000) (addr % 0x1000 / 4) := by
  unfold State.mapped
  rw [if_neg (by omega), arrayWindow_of_eight_le (by omega)]

/-- Nothing is mapped behind the windows. -/
theorem mapped_behind_windows (s : State) (draw : Nat) {addr : Nat} (h : 0xB000 ≤ addr) : s.mapped draw addr = none := by
  rw [mapped_of_constant s draw (by omega), constantWord_of_eleven_le s (by omega)]

/-- The address of an element of a window does not wrap at 16 bits. -/
theorem toNat_elementAddress {window i : Nat} (hwindow : window < 16) (hi : i < 1024) :
    (BitVec.ofNat 16 (0x1000 * window + 4 * i)).toNat = 0x1000 * window + 4 * i := by
  rw [BitVec.toNat_ofNat]
  omega

/-- A read in an array's window. -/
theorem memRead_array (s : State) (draw : Nat) {window i : Nat} {a : ArrayId} (hwindow : 1 ≤ window ∧ window < 16)
    (ha : arrayWindow window = some a) (hi : i < 1024) :
    s.memRead draw (BitVec.ofNat 16 (0x1000 * window + 4 * i)) 4 = (s.arrayWord draw a i).elim .busErr .ok := by
  have haddr := toNat_elementAddress hwindow.2 hi
  rw [memRead_of_aligned s draw (by omega), haddr, mapped_of_arrayWindow s draw (a := a) (by omega)]
  · congr 2; omega
  · rwa [show (0x1000 * window + 4 * i) / 0x1000 = window by omega]

/-- A read in a constant memory's window. -/
theorem memRead_constant (s : State) (draw : Nat) {window i : Nat} (hwindow : 8 ≤ window ∧ window < 16) (hi : i < 1024) :
    s.memRead draw (BitVec.ofNat 16 (0x1000 * window + 4 * i)) 4 = (s.constantWord window i).elim .busErr .ok := by
  have haddr := toNat_elementAddress hwindow.2 hi
  rw [memRead_of_aligned s draw (by omega), haddr, mapped_of_constant s draw (by omega)]
  congr 2 <;> omega

theorem arrayWord_of_lt (s : State) (draw : Nat) {a : ArrayId} {i : Nat} (h : i < s.cfg.len a) :
    s.arrayWord draw a i = some (extendElement a ((s.mem.read a i).getD (Config.freshElement draw))) := if_pos h

theorem arrayWord_of_le (s : State) (draw : Nat) {a : ArrayId} {i : Nat} (h : s.cfg.len a ≤ i) : s.arrayWord draw a i = none :=
  if_neg (not_lt.mpr h)

/-- The two extensions of R87 by the value they keep. -/
theorem extendElement_eq (a : ArrayId) (x : Sample) :
    extendElement a x = if a = .rb then BitVec.ofNat 32 x.toNat else BitVec.ofInt 32 x.toInt := by
  rw [extendElement, BitVec.ofNat_toNat]
  rfl

/-- The seven windows of R84. -/
theorem arrayWindow_of_base {base : Nat} {a : ArrayId}
    (h : (base, a) ∈ [(0x1000, ArrayId.aw), (0x2000, .wt), (0x3000, .wf), (0x4000, .sc), (0x5000, .ms), (0x6000, .cb), (0x7000, .rb)]) :
    ∃ window, (1 ≤ window ∧ window < 16) ∧ arrayWindow window = some a ∧ base = 0x1000 * window := by
  simp only [List.mem_cons, List.not_mem_nil, or_false, Prod.mk.injEq] at h
  obtain ⟨rfl, rfl⟩ | ⟨rfl, rfl⟩ | ⟨rfl, rfl⟩ | ⟨rfl, rfl⟩ | ⟨rfl, rfl⟩ | ⟨rfl, rfl⟩ | ⟨rfl, rfl⟩ := h
  · exact ⟨1, by decide⟩
  · exact ⟨2, by decide⟩
  · exact ⟨3, by decide⟩
  · exact ⟨4, by decide⟩
  · exact ⟨5, by decide⟩
  · exact ⟨6, by decide⟩
  · exact ⟨7, by decide⟩

/-- Settles O56: the window picks the array, and below the array's length a missing value is the read's fresh draw. -/
theorem hostReadsArrayElements : Obligations.HostReadsArrayElements := by
  intro s draw i base a _ hi hbase
  obtain ⟨window, hwindow, ha, rfl⟩ := arrayWindow_of_base hbase
  rw [memRead_array s draw hwindow ha hi]
  refine ⟨fun x hlt hread => ?_, fun hlt hread => ⟨Config.freshElement draw, ?_⟩, fun hle => ?_⟩
  · rw [arrayWord_of_lt s draw hlt, hread, ← extendElement_eq]
    rfl
  · rw [arrayWord_of_lt s draw hlt, hread, ← extendElement_eq]
    rfl
  · rw [arrayWord_of_le s draw hle]
    rfl

/-! ### The constant memories: CLUT, TW and PROG, each in its window (R84) -/

theorem constantWord_clut (s : State) (i : Nat) :
    s.constantWord 8 i = if h : i < 256 then some ((s.cfg.CLUT.get ⟨i, h⟩).setWidth 32) else none := rfl

theorem constantWord_twiddle (s : State) (i : Nat) :
    s.constantWord 9 i = if i < s.cfg.N.toNat then some ((s.cfg.twiddle i).signExtend 32) else none := rfl

theorem constantWord_prog (s : State) (i : Nat) : s.constantWord 10 i = s.cfg.PROG[i]? := rfl

/-- Settles O57: each window is a constant memory's, and its word is there below its length. -/
theorem hostReadsConstantMemories : Obligations.HostReadsConstantMemories := by
  intro s draw i _ hi
  have clut := memRead_constant s draw (window := 8) (by decide) hi
  have twiddle := memRead_constant s draw (window := 9) (by decide) hi
  have prog := memRead_constant s draw (window := 10) (by decide) hi
  rw [constantWord_clut] at clut
  rw [constantWord_twiddle] at twiddle
  rw [constantWord_prog] at prog
  refine ⟨fun h => ?_, fun h => ?_, fun h => ?_, fun h => ?_, fun w h => ?_, fun h => ?_⟩
  · rw [clut, dif_pos h, BitVec.ofNat_toNat]
    rfl
  · rw [clut, dif_neg (not_lt.mpr h)]
    rfl
  · rw [twiddle, if_pos (by omega)]
    rfl
  · rw [twiddle, if_neg (by omega)]
    rfl
  · rw [prog, h]
    rfl
  · rw [prog, h]
    rfl

/-- Settles O55: the three refusals of `memRead`, and the register page address by address. -/
theorem hostReadsMappedAlignedWordsOnly : Obligations.HostReadsMappedAlignedWordsOnly := by
  intro s draw addr size
  refine ⟨fun _ => rfl, memRead_of_narrow s draw addr, fun h => memRead_of_misaligned s draw h size, fun h => ?_, ?_⟩
  · obtain hgap | hpage | hbehind := h
    · exact memRead_of_unmapped (by rw [mapped_register s draw (by omega), register_of_unmapped s (.inl hgap)]) size
    · exact memRead_of_unmapped (by rw [mapped_register s draw (by omega), register_of_unmapped s (.inr hpage.1)]) size
    · exact memRead_of_unmapped (mapped_behind_windows s draw hbehind) size
  · and_intros <;> exact memRead_register draw (by decide) rfl

/-! ### The turns of a run (R95) -/

/-- The state with other turns listed. -/
def State.withTurns (s : State) (ts : List Turn) : State := s.withEnv { s.env with turns := ts }

@[simp] theorem State.withTurns_turns (s : State) (ts : List Turn) : (s.withTurns ts).env.turns = ts := rfl

theorem State.gated_withTurns {s : State} {ts : List Turn} (i : Instr) {effect : State → State}
    (h : effect (s.withTurns ts) = (effect s).withTurns ts) : (s.withTurns ts).gated i effect = (s.gated i effect).withTurns ts := by
  cases hdone : s.initDone with
  | false => rw [State.gated_of_not_init hdone, State.gated_of_not_init (s := s.withTurns ts) hdone]; rfl
  | true => rw [State.gated_of_init hdone, State.gated_of_init (s := s.withTurns ts) hdone, h]

theorem waitForData_withTurns (s : State) (ts : List Turn) : waitForData (s.withTurns ts) = (waitForData s).withTurns ts := by
  rw [waitForData, waitForData, apply_ite (State.withTurns · ts)]
  rfl

theorem jumpTo_withTurns (target : Nat) (s : State) (ts : List Turn) :
    jumpTo target (s.withTurns ts) = (jumpTo target s).withTurns ts := by
  rw [jumpTo, jumpTo, apply_ite (State.withTurns · ts)]
  rfl

/-- INIT draws on the listed answers, not on the listed turns. -/
theorem initBlock_withTurns (a : InitAnswer) (s : State) (ts : List Turn) :
    initBlock a (s.withTurns ts) = (initBlock a s).withTurns ts := by
  obtain ⟨dispOk, srcOk⟩ := a
  rw [initBlock, initBlock, apply_ite (State.withTurns · ts)]
  cases dispOk <;> cases srcOk <;> rfl

theorem land_withTurns (block : List Sample) (s : State) (ts : List Turn) :
    land block (s.withTurns ts) = (land block s).withTurns ts := by
  rw [land, land, apply_ite (State.withTurns · ts)]
  rfl

theorem offer_withTurns (block : List Sample) (s : State) (ts : List Turn) :
    offer block (s.withTurns ts) = (offer block s).withTurns ts := by
  rw [offer, offer, apply_ite (State.withTurns · ts), land_withTurns]
  rfl

/-- What a command does is the same whatever turns are listed. -/
theorem after_withTurns (i : Instr) (s : State) (ts : List Turn) : after i (s.withTurns ts) = (after i s).withTurns ts := by
  cases i with
  | nop | halt => rfl
  | init => exact initBlock_withTurns s.answer s.useAnswer ts
  | waitdata => exact State.gated_withTurns .waitdata (waitForData_withTurns s ts)
  | jmp target => exact jumpTo_withTurns target s ts
  | ingest => exact State.gated_withTurns .ingest rfl
  | window => exact State.gated_withTurns .window rfl
  | rfft => exact State.gated_withTurns .rfft rfl
  | cmag => exact State.gated_withTurns .cmag rfl
  | map m => exact State.gated_withTurns (.map m) rfl
  | compose => exact State.gated_withTurns .compose rfl
  | advance => exact State.gated_withTurns .advance rfl

/-- A fetch answers a next state, the same whatever turns are listed. -/
theorem runCommand_next (s : State) :
    ∃ u : State, ∀ ts, (s.withTurns ts).runCommand = .next (u.withTurns ts) := by
  have hfetch (ts : List Turn) : (s.withTurns ts).fetch = s.fetch := rfl
  cases hword : s.fetch with
  | none => exact ⟨s.raise .pcRange (s.pc.setWidth 32), fun ts => by simp only [State.runCommand, hfetch, hword]; rfl⟩
  | some w =>
    cases hdecode : decode w with
    | illegal why => exact ⟨s.raise .illegalCmd w, fun ts => by simp only [State.runCommand, hfetch, hword, hdecode]; rfl⟩
    | command i =>
      exact ⟨after i s, fun ts => by simp only [State.runCommand, hfetch, hword, hdecode, exec_eq, after_withTurns]⟩

/-- A turn answers a next state, the same whatever turns are listed behind it. -/
theorem take_next (t : Turn) (s : State) : ∃ u : State, ∀ ts, (s.withTurns ts).take t = .next (u.withTurns ts) := by
  cases t with
  | seq =>
    have hrun (ts : List Turn) : (s.withTurns ts).runState = s.runState := rfl
    simp only [State.take, State.seqTurn, hrun]
    cases s.runState with
    | running => exact runCommand_next s
    | halted | faulted => exact ⟨s, fun _ => rfl⟩
  | land block => exact ⟨offer block s, fun ts => congrArg _ (offer_withTurns block s ts)⟩
  | reset => exact ⟨s.hardReset, fun _ => rfl⟩

/-- A step takes the first listed turn, with the others listed behind it. -/
theorem step_of_listed {s : State} {t : Turn} {ts : List Turn} (h : s.env.turns = t :: ts) : step s = (s.withTurns ts).take t :=
  step_of_turn (State.nextTurn_of_listed h)

theorem run_succ_of_step {M : Host.Core} {s u : M.State} (k : Nat) (h : M.step s = .next u) :
    M.run (k + 1) s = M.run k u := by
  rw [Host.Core.run, h]

theorem takeAll_cons_of_take {s u : State} {t : Turn} (ts : List Turn) (h : s.take t = .next u) :
    takeAll (t :: ts) s = takeAll ts u := by
  rw [takeAll, h]

/-- Settles O59, by induction on the turns: what the first one does is the same with the others listed behind it as with none. -/
theorem everyFiniteOrderOfTurnsIsARun : Obligations.EveryFiniteOrderOfTurnsIsARun := by
  intro ts later s hturns
  induction ts generalizing s with
  | nil => exact ⟨s, rfl, rfl, hturns⟩
  | cons t ts ih =>
    obtain ⟨u, htake⟩ := take_next t s
    have hstep : step s = .next (u.withTurns (ts ++ later)) := (step_of_listed hturns).trans (htake _)
    obtain ⟨v, hrun, hall, hlater⟩ := ih (u.withTurns (ts ++ later)) (State.withTurns_turns u _)
    exact ⟨v, (run_succ_of_step (M := Sys2Proof.core) ts.length hstep).trans hrun,
      (takeAll_cons_of_take ts (htake [])).trans hall, hlater⟩

end Sys2Proof.Machine
end

section
/-! SUPPORT. Encoding (30_encoding.md): the row of each command, what it asks of a word in plain arithmetic (R110, R111), the round trips
of decoder and encoder, the illegal words (R115) and the pseudo-instructions (R118). -/

namespace Sys2Proof

/-! ### The row of a command (R113) -/

/-- The form of a command's row (R111). -/
def Instr.form : Instr → OpForm
  | .jmp _ => .t
  | .map _ => .i
  | i => .z i

/-- The mask of a form: `OP` and the bits R111 wants 0. -/
def OpForm.mask : OpForm → Word
  | .z _ => 0xFFFFFFFF#32
  | .t | .i => 0xFFFF0000#32

/-- The row of a command, laid out from its form and opcode. -/
def Instr.row (i : Instr) : OpRow := ⟨i.form, i.op.setWidth 32 <<< 24, i.form.mask⟩

theorem Instr.row_mem (i : Instr) : i.row ∈ opcodeTable := by
  cases i <;> simp [opcodeTable, row, form, op, OpForm.mask]

/-- A row gives every word a command of that row. -/
theorem OpRow.row_command {r : OpRow} (hr : r ∈ opcodeTable) (w : Word) : (r.command w).row = r := by
  simp only [opcodeTable, List.mem_cons, List.not_mem_nil, or_false] at hr
  rcases hr with rfl | rfl | rfl | rfl | rfl | rfl | rfl | rfl | rfl | rfl | rfl | rfl <;>
    simp [OpRow.command, Instr.row, Instr.form, Instr.op, OpForm.mask]

/-- R114 for one command: its row covers the word, and its operand is the one read there. -/
theorem decode_eq_command_iff_row {w : Word} {i : Instr} :
    decode w = .command i ↔ i.row.covers w = true ∧ i = i.row.command w := by
  rw [decode_eq_command_iff]
  constructor
  · rintro ⟨r, hr, hcovers, rfl⟩
    rw [OpRow.row_command hr]
    exact ⟨hcovers, rfl⟩
  · exact fun ⟨hcovers, hi⟩ => ⟨i.row, i.row_mem, hcovers, hi⟩

/-- A word is illegal when the row of no command covers it. -/
theorem decode_illegal_iff_row {w : Word} : (∃ why, decode w = .illegal why) ↔ ∀ i : Instr, i.row.covers w = false := by
  rw [decode_illegal_iff]
  constructor
  · exact fun h i => h i.row i.row_mem
  · intro h r hr
    rw [← OpRow.row_command hr w]
    exact h _

/-! ### What a mask asks of a word, in plain arithmetic -/

theorem and_operandMask_toNat (w : Word) : (w &&& 0xFFFF#32).toNat = w.toNat % 2 ^ 16 :=
  Nat.and_two_pow_sub_one_eq_mod w.toNat 16

theorem and_upperMask (w : Word) : w &&& 0xFFFF0000#32 = w >>> 16 <<< 16 := by
  have hmask : 0xFFFF0000#32 = BitVec.allOnes 32 <<< 16 := rfl
  ext j hj
  by_cases h : j < 16
  · simp [hmask, -BitVec.reduceAllOnes, -BitVec.reduceShiftLeft, h]
  · simp [hmask, -BitVec.reduceAllOnes, -BitVec.reduceShiftLeft, h, BitVec.getLsbD_eq_getElem hj,
      show 16 + (j - 16) = j by omega]

/-- The bits a form wants 0 (R111): the whole operand field, or its bits 23:16. -/
def OpForm.MustBeZero (w : Word) : OpForm → Prop
  | .z _ => w.toNat % 2 ^ 24 = 0
  | .t | .i => w.toNat / 2 ^ 16 % 2 ^ 8 = 0

/-- A word agrees with an opcode's match under a form's mask: `OP` is that opcode, and the form's bits are 0. -/
theorem and_mask_eq_iff (w : Word) (op : BitVec 8) (form : OpForm) :
    w &&& form.mask = op.setWidth 32 <<< 24 ↔ w.toNat / 2 ^ 24 = op.toNat ∧ form.MustBeZero w := by
  have hop := op.isLt
  have hw := w.isLt
  cases form with
  | z c =>
    rw [OpForm.mask, show 0xFFFFFFFF#32 = BitVec.allOnes 32 from rfl, BitVec.and_allOnes, ← BitVec.toNat_inj]
    simp only [OpForm.MustBeZero, BitVec.toNat_shiftLeft, BitVec.toNat_setWidth, Nat.shiftLeft_eq]
    omega
  | t | i =>
    rw [OpForm.mask, and_upperMask, ← BitVec.toNat_inj]
    simp only [OpForm.MustBeZero, BitVec.toNat_shiftLeft, BitVec.toNat_ushiftRight, BitVec.toNat_setWidth, Nat.shiftLeft_eq,
      Nat.shiftRight_eq_div_pow]
    omega

theorem Instr.row_covers_iff (i : Instr) (w : Word) :
    i.row.covers w = true ↔ w.toNat / 2 ^ 24 = i.op.toNat ∧ i.form.MustBeZero w :=
  beq_iff_eq.trans (and_mask_eq_iff w i.op i.form)

/-! ### The operand of a word (R112) -/

theorem jumpTarget_eq_and (w : Word) : Machine.jumpTarget w = (w &&& 0xFFFF#32).toNat := by
  rw [and_operandMask_toNat]
  simp [Machine.jumpTarget]

/-- R112's sign extension, by the sign bit. -/
theorem immediate_eq_and (w : Word) :
    Machine.immediate w =
      if (w &&& 0xFFFF#32).toNat < 32768 then ((w &&& 0xFFFF#32).toNat : Int) else (w &&& 0xFFFF#32).toNat - 65536 := by
  rw [and_operandMask_toNat, Machine.immediate, BitVec.toInt_eq_toNat_cond]
  simp only [BitVec.extractLsb'_toNat, Nat.shiftRight_zero]
  omega

/-! ### The round trips (R112, R114) -/

theorem toNat_opField (w : Word) : (Machine.opField w).toNat = w.toNat / 2 ^ 24 := by
  have hw := w.isLt
  rw [Machine.opField, BitVec.extractLsb'_toNat, Nat.shiftRight_eq_div_pow]
  omega

theorem toNat_opndField (w : Word) : (Machine.opndField w).toNat = w.toNat % 2 ^ 24 := by
  rw [Machine.opndField, BitVec.extractLsb'_toNat, Nat.shiftRight_zero]

/-- A word is a command's word exactly when its two fields are the command's (R110). -/
theorem encode_eq_iff (i : Instr) (w : Word) :
    encode i = w ↔ w.toNat / 2 ^ 24 = i.op.toNat ∧ w.toNat % 2 ^ 24 = i.opnd.toNat := by
  obtain ⟨hop, hopnd⟩ : Machine.opField (encode i) = i.op ∧ Machine.opndField (encode i) = i.opnd :=
    Laws.Fields.fields_of_word i.op i.opnd
  rw [← hop, ← hopnd, toNat_opField, toNat_opndField, ← BitVec.toNat_inj]
  omega

/-- The bits a form wants 0 are 0 and the operand is the one read, exactly when the operand is in range and laid out in `OPND`. -/
theorem Instr.operand_iff (i : Instr) (w : Word) :
    i.form.MustBeZero w ∧ i = i.row.command w ↔ i.wf = true ∧ w.toNat % 2 ^ 24 = i.opnd.toNat := by
  cases i with
  | jmp target =>
    simp only [form, row, wf, opnd, OpForm.MustBeZero, OpRow.command, jumpTarget_eq_and, and_operandMask_toNat, Machine.opndT,
      Instr.jmp.injEq, decide_eq_true_eq, BitVec.toNat_setWidth, BitVec.toNat_ofNat]
    omega
  | map m =>
    simp only [form, row, wf, opnd, OpForm.MustBeZero, OpRow.command, immediate_eq_and, and_operandMask_toNat, Machine.opndI,
      Instr.map.injEq, Bool.and_eq_true, decide_eq_true_eq, BitVec.toNat_setWidth, BitVec.toNat_ofInt]
    omega
  | nop | init | waitdata | halt | ingest | window | rfft | cmag | compose | advance =>
    simp [form, row, wf, opnd, OpForm.MustBeZero, OpRow.command, Machine.opndZ]

/-- The decoder inverts the encoder: a word is a command exactly when the command is well-formed and the word is its word. -/
theorem decode_eq_command_iff_encode {w : Word} {i : Instr} : decode w = .command i ↔ i.wf = true ∧ encode i = w := by
  rw [decode_eq_command_iff_row, i.row_covers_iff, and_assoc, i.operand_iff, encode_eq_iff]
  exact and_left_comm

/-- Settles O1: a well-formed command's word is the command's word. -/
theorem decodeOfEncodeIsTheCommand : Obligations.DecodeOfEncodeIsTheCommand :=
  fun _ hwf => decode_eq_command_iff_encode.2 ⟨hwf, rfl⟩

/-- Settles O2, by the same equivalence read the other way. -/
theorem encodeOfDecodeIsTheWord : Obligations.EncodeOfDecodeIsTheWord :=
  fun _ _ => decode_eq_command_iff_encode.1

/-! ### The rows (R113) -/

/-- A word decodes to a command without operand exactly when it agrees with the row's match under the full mask. -/
theorem decode_eq_plain_iff {i : Instr} (hform : i.form = .z i) (w : Word) :
    decode w = .command i ↔ w &&& 0xFFFFFFFF#32 = i.op.setWidth 32 <<< 24 := by
  have hread : i = i.row.command w := by simp only [Instr.row, OpRow.command, hform]
  rw [decode_eq_command_iff_row, and_iff_left hread, OpRow.covers, beq_iff_eq]
  simp only [Instr.row, OpForm.mask, hform]

theorem decode_eq_jmp_iff (w : Word) (target : Nat) :
    decode w = .command (.jmp target) ↔ w &&& 0xFFFF0000#32 = 0x04000000#32 ∧ target = (w &&& 0xFFFF#32).toNat := by
  simp [decode_eq_command_iff_row, OpRow.covers, OpRow.command, Instr.row, Instr.form, Instr.op, OpForm.mask, jumpTarget_eq_and]

theorem decode_eq_map_iff (w : Word) (m : Int) :
    decode w = .command (.map m) ↔
      w &&& 0xFFFF0000#32 = 0x30000000#32 ∧
        m = if (w &&& 0xFFFF#32).toNat < 32768 then ((w &&& 0xFFFF#32).toNat : Int) else (w &&& 0xFFFF#32).toNat - 65536 := by
  simp [decode_eq_command_iff_row, OpRow.covers, OpRow.command, Instr.row, Instr.form, Instr.op, OpForm.mask, immediate_eq_and]

/-- Settles O3, row by row. -/
theorem wordIsCommandExactlyUnderMask : Obligations.WordIsCommandExactlyUnderMask :=
  fun w => ⟨decode_eq_plain_iff (i := .nop) rfl w, decode_eq_plain_iff (i := .init) rfl w,
    decode_eq_plain_iff (i := .waitdata) rfl w, decode_eq_plain_iff (i := .halt) rfl w, decode_eq_jmp_iff w,
    decode_eq_plain_iff (i := .ingest) rfl w, decode_eq_plain_iff (i := .window) rfl w, decode_eq_plain_iff (i := .rfft) rfl w,
    decode_eq_plain_iff (i := .cmag) rfl w, decode_eq_map_iff w, decode_eq_plain_iff (i := .compose) rfl w,
    decode_eq_plain_iff (i := .advance) rfl w⟩

/-! ### The illegal words (R115) -/

/-- A word is illegal when each command has another opcode or wants bits 0 that are not. -/
theorem decode_illegal_iff_fields {w : Word} :
    (∃ why, decode w = .illegal why) ↔ ∀ i : Instr, w.toNat / 2 ^ 24 = i.op.toNat → ¬ i.form.MustBeZero w := by
  simp only [decode_illegal_iff_row, ← Bool.not_eq_true, Instr.row_covers_iff, not_and]

/-- The bits that make an opcode's words illegal: for the ten opcodes of form Z the operand field, for JMP's and MAP's its bits 23:16. -/
theorem forall_not_mustBeZero_iff (op : Nat) (w : Word) :
    (∀ i : Instr, op = i.op.toNat → ¬ i.form.MustBeZero w) ↔
      (op ∈ [0x00, 0x01, 0x02, 0x03, 0x10, 0x20, 0x21, 0x22, 0x40, 0x41] → w.toNat % 2 ^ 24 ≠ 0) ∧
      (op ∈ [0x04, 0x30] → w.toNat / 2 ^ 16 % 2 ^ 8 ≠ 0) := by
  constructor
  · intro h
    simp only [List.mem_cons, List.not_mem_nil, or_false]
    constructor
    · rintro (rfl | rfl | rfl | rfl | rfl | rfl | rfl | rfl | rfl | rfl)
      exacts [h .nop rfl, h .init rfl, h .waitdata rfl, h .halt rfl, h .ingest rfl, h .window rfl, h .rfft rfl, h .cmag rfl,
        h .compose rfl, h .advance rfl]
    · rintro (rfl | rfl)
      exacts [h (.jmp 0) rfl, h (.map 0) rfl]
  · rintro ⟨hz, hti⟩ i rfl
    cases i with
    | jmp target => exact hti (by simp [Instr.op])
    | map m => exact hti (by simp [Instr.op])
    | nop | init | waitdata | halt | ingest | window | rfft | cmag | compose | advance => exact hz (by decide)

/-- The opcodes no row has are R115's five ranges. -/
theorem unassigned_iff {op : Nat} (h : op < 256) :
    (op ∉ [0x00, 0x01, 0x02, 0x03, 0x10, 0x20, 0x21, 0x22, 0x40, 0x41] ∧ op ∉ [0x04, 0x30]) ↔
      (0x05 ≤ op ∧ op ≤ 0x0F) ∨ (0x11 ≤ op ∧ op ≤ 0x1F) ∨ (0x23 ≤ op ∧ op ≤ 0x2F) ∨ (0x31 ≤ op ∧ op ≤ 0x3F) ∨
        (0x42 ≤ op ∧ op ≤ 0xFF) := by
  simp only [List.mem_cons, List.not_mem_nil, or_false]
  omega

namespace Machine

/-- A running SEQ's turn raises ILLEGAL_CMD at an illegal word (R272, R115). -/
theorem seqTurn_of_illegal {s : State} {w : Word} {why : IllegalWord} (hrun : s.runState = .running) (hfetch : s.fetch = some w)
    (hdecode : decode w = .illegal why) : s.seqTurn = .next (s.raise .illegalCmd w) := by
  simp only [State.seqTurn, hrun, State.runCommand, hfetch, hdecode]

end Machine

/-- Settles O4: a word is illegal for lack of an opcode, or for the bits its opcode's form wants 0. -/
theorem illegalWordsAreThreeKindsAndFault : Obligations.IllegalWordsAreThreeKindsAndFault := by
  constructor
  · intro w
    have hop : w.toNat / 2 ^ 24 < 256 := by have := w.isLt; omega
    rw [decode_illegal_iff_fields, forall_not_mustBeZero_iff, ← unassigned_iff hop]
    have hdisjoint : w.toNat / 2 ^ 24 ∈ [0x04, 0x30] →
        w.toNat / 2 ^ 24 ∉ [0x00, 0x01, 0x02, 0x03, 0x10, 0x20, 0x21, 0x22, 0x40, 0x41] := by
      simp only [List.mem_cons, List.not_mem_nil, or_false]
      omega
    tauto
  · intro s w why e hrun hturn hfetch hdecode
    rw [Machine.step_of_turn hturn]
    exact Machine.seqTurn_of_illegal hrun hfetch hdecode

/-! ### Examples and pseudo-instructions (R118, R119) -/

/-- Settles O5: each legal word is its command's word (R110), and no row covers the three illegal ones. -/
theorem encodingExamplesDecode : Obligations.EncodingExamplesDecode := by
  unfold Obligations.EncodingExamplesDecode
  simp only [decode_eq_command_iff_encode, decode_illegal_iff]
  decide

namespace Machine

/-- The first statement's words stand before the words of the others. -/
theorem emitWords_cons {labels : List (List Char × Nat)} {s : AsmStatement} {ss : List AsmStatement} {ws rest : List Word}
    (hs : s.body.words labels = some ws) (hss : emitWords labels ss = some rest) :
    emitWords labels (s :: ss) = some (ws ++ rest) := by
  simp only [emitWords, hs, hss]

/-- Settles O6: the expansions' words, in front of the rest. -/
theorem pseudoInstructionsExpandInPlace : Obligations.PseudoInstructionsExpandInPlace := by
  intro labels l ss rest hss
  exact ⟨emitWords_cons (s := { label := l, body := .analyze }) rfl hss,
    emitWords_cons (s := { label := l, body := .frame }) rfl hss⟩

end Machine

end Sys2Proof
end

section
/-! SUPPORT. The sliding window (41_sliding_window.md): what a landing does when it is enabled and when it is not (R141 to R144), and what
INGEST does to the window (R146, R149). -/

namespace Sys2Proof.Machine

/-! ### A landing (R141 to R143) -/

theorem landingEnabled_iff (s : State) : s.landingEnabled = true ↔ s.srcRunning = true ∧ s.runState ≠ .faulted := by
  simp [State.landingEnabled]

theorem offer_of_enabled {s : State} (hsrc : s.srcRunning = true) (hrun : s.runState ≠ .faulted) (block : List Sample) :
    offer block s = land block s := if_pos ((landingEnabled_iff s).mpr ⟨hsrc, hrun⟩)

theorem offer_of_disabled {s : State} (h : s.srcRunning = false ∨ s.runState = .faulted) (block : List Sample) :
    offer block s = s := by
  refine if_neg fun henabled => ?_
  obtain ⟨hsrc, hrun⟩ := (landingEnabled_iff s).mp henabled
  simp [hsrc, hrun] at h

/-- A landing's turn, listed or drawn, lands its block where that is enabled. -/
theorem step_of_enabled_landing {s u : State} {block : List Sample} (h : s.nextTurn = (.land block, u))
    (hsrc : u.srcRunning = true) (hrun : u.runState ≠ .faulted) : step s = .next (land block u) :=
  (step_of_turn h).trans (congrArg Host.Outcome.next (offer_of_enabled hsrc hrun block))

/-- `CB` has room for exactly a block of `S` samples (R47). -/
theorem len_cb_of_block {c : Config} {block : List Sample} (h : (block.length : Int) = c.S) : c.len .cb = block.length := by
  simp [Config.len, ← h]

/-- The landed block is the whole of `CB`. -/
theorem land_CB {s : State} {block : List Sample} (h : (block.length : Int) = s.cfg.S) : (land block s).mem.CB = block := by
  have hcells : (land block s).mem.CB = (List.range block.length).map fun j => block[j]?.getD (Config.noValue .cb j) := by
    rw [land_eq h, len_cb_of_block h]
    rfl
  rw [hcells]
  refine List.ext_getElem (by simp) fun j _ hj => ?_
  simp [hj]

theorem full_cb_land {s : State} {block : List Sample} (h : (block.length : Int) = s.cfg.S) : (land block s).Full .cb := by
  rw [State.Full, land_cfg, len_cb_of_block h]
  exact congrArg List.length (land_CB h)

theorem land_AW {s : State} {block : List Sample} (h : (block.length : Int) = s.cfg.S) :
    (land block s).mem.AW = s.mem.AW := by
  rw [land_eq h]
  rfl

theorem read_land_cb {s : State} {block : List Sample} (h : (block.length : Int) = s.cfg.S) (j : Nat) :
    (land block s).mem.read .cb j = block[j]? := congrArg (·[j]?) (land_CB h)

/-- A write of one whole array touches no other. -/
theorem Memory.sameExcept_fill (m : Memory) (a : ArrayId) (n : Nat) (f : Nat → Sample) : m.SameExcept a (m.fill a n f) :=
  fun _ hb i => Memory.read_fill_other m n i f hb

theorem sameExcept_land {s : State} {block : List Sample} (h : (block.length : Int) = s.cfg.S) :
    s.mem.SameExcept .cb (land block s).mem := by
  rw [land_eq h]
  exact Memory.sameExcept_fill _ _ _ _

/-- Beside the arrays a landed block writes `NEWDATA` and `DROPS`. -/
theorem land_eq_with_mem {s : State} {block : List Sample} (h : (block.length : Int) = s.cfg.S) :
    land block s =
      { s with
        mem := (land block s).mem, newData := BitVec.ofInt 16 s.cfg.S,
        drops := if s.newData = 0#16 then s.drops else s.drops + 1 } := by
  rw [land_eq h]
  rfl

/-- Settles O20: the turn offers its block, and the offer is disabled. -/
theorem noLandingWhileDisabled : Obligations.NoLandingWhileDisabled :=
  fun s block e hturn hdisabled =>
    (step_of_turn hturn).trans (congrArg Host.Outcome.next (offer_of_disabled (s := { s with env := e }) hdisabled block))

/-- Settles O19: the two ends of an enabled landing, by the block's length. -/
theorem landingStoresTheBlockOrFaults : Obligations.LandingStoresTheBlockOrFaults := by
  intro s block e hturn hsrc hrun
  have hstep := step_of_enabled_landing hturn hsrc hrun
  constructor
  · intro hlen
    exact ⟨(land block { s with env := e }).mem, hstep.trans (congrArg _ (land_eq_with_mem hlen)), read_land_cb hlen,
      sameExcept_land hlen⟩
  · intro hlen
    exact hstep.trans (congrArg _ (land_fault hlen))

/-! ### Landings with no INGEST between them (R144) -/

/-- A landing leaves `NEWDATA` not 0: no legal `S` wraps to 0 in its 16 bits (R36). -/
theorem newData_ne_zero {S : Int} (hpos : 1 ≤ S) (hmax : S ≤ 1024) : BitVec.ofInt 16 S ≠ 0#16 := by
  intro hzero
  have hint : S.bmod (2 ^ 16) = 0 := (BitVec.toInt_ofInt S).symm.trans (congrArg BitVec.toInt hzero)
  rw [Int.bmod_def] at hint
  omega

/-- What a run of landings finds and what it leaves, one landing at a time. -/
theorem step_of_listed_block {s : State} {block : List Sample} {ts : List Turn} (hturns : s.env.turns = .land block :: ts)
    (hsrc : s.srcRunning = true) (hrun : s.runState ≠ .faulted) (hlen : (block.length : Int) = s.cfg.S) :
    ∃ u, step s = .next u ∧ u.env.turns = ts ∧ u.cfg = s.cfg ∧ u.srcRunning = true ∧ u.drops = s.dropsAfterLanding ∧
      u.mem.CB = block ∧ u.newData = BitVec.ofInt 16 s.cfg.S ∧ u.pc = s.pc ∧ u.runState = s.runState := by
  refine ⟨land block (s.withTurns ts), step_of_enabled_landing (State.nextTurn_of_listed hturns) hsrc hrun, ?_⟩
  have hblock := land_CB (s := s.withTurns ts) hlen
  rw [land_eq_with_mem (s := s.withTurns ts) hlen]
  exact ⟨rfl, rfl, hsrc, rfl, hblock, rfl, rfl, rfl⟩

/-- A run of landings raises `DROPS` as its first one does, and once more at each later one, which finds `NEWDATA` not 0. -/
theorem run_landings {s : State} {blocks : List (List Sample)} {last : List Sample}
    (hturns : s.env.turns = (blocks ++ [last]).map .land) (hsrc : s.srcRunning = true) (hrun : s.runState ≠ .faulted)
    (hpos : 1 ≤ s.cfg.S) (hmax : s.cfg.S ≤ 1024) (hlen : ∀ b ∈ blocks ++ [last], (b.length : Int) = s.cfg.S) :
    ∃ t, Sys2Proof.core.run (blocks.length + 1) s = .next t ∧
      t.drops = s.dropsAfterLanding + BitVec.ofNat 32 blocks.length ∧ (∀ j, t.mem.read .cb j = last[j]?) ∧
      t.newData = BitVec.ofInt 16 s.cfg.S ∧ t.pc = s.pc ∧ t.runState = s.runState := by
  induction blocks generalizing s with
  | nil =>
    obtain ⟨u, hstep, _, _, _, hdrops, hcb, hregs⟩ := step_of_listed_block hturns hsrc hrun (hlen last (by simp))
    exact ⟨u, run_succ_of_step (M := Sys2Proof.core) 0 hstep, hdrops.trans (BitVec.add_zero _).symm,
      fun j => congrArg (·[j]?) hcb, hregs⟩
  | cons block blocks ih =>
    obtain ⟨u, hstep, hturns', hcfg, hsrc', hdrops, _, hnew, hpc, hstate⟩ :=
      step_of_listed_block hturns hsrc hrun (hlen block (by simp))
    have hlost : u.dropsAfterLanding = s.dropsAfterLanding + 1 :=
      hdrops ▸ if_neg (hnew ▸ newData_ne_zero hpos hmax)
    obtain ⟨t, hruns, htdrops, hregs⟩ := ih hturns' hsrc' (hstate ▸ hrun) (hcfg ▸ hpos) (hcfg ▸ hmax)
      fun b hb => hcfg ▸ hlen b (.tail _ hb)
    refine ⟨t, (run_succ_of_step (M := Sys2Proof.core) _ hstep).trans hruns, ?_, hcfg ▸ hpc ▸ hstate ▸ hregs⟩
    rw [htdrops, hlost, List.length_cons, BitVec.ofNat_add, BitVec.add_assoc, BitVec.add_comm 1]
    rfl

/-- Settles O21: the first landing finds `NEWDATA` 0 and loses nothing. -/
theorem consecutiveLandingsCountTheLost : Obligations.ConsecutiveLandingsCountTheLost := by
  intro s blocks last hturns hsrc hrun hempty hpos hmax hlen
  have hfirst : s.dropsAfterLanding = s.drops := if_pos hempty
  exact hfirst ▸ run_landings hturns hsrc hrun hpos hmax hlen

/-! ### INGEST (R146) -/

/-- The front of the new window is the newest part of the old one. -/
theorem shiftedIn_of_lt {s : State} {i : Nat} (h : i < s.cfg.len .aw - s.cfg.len .cb) :
    shiftedIn s i = s.mem.elem .aw (i + s.cfg.len .cb) := if_pos h

/-- Its end is the gained capture buffer. -/
theorem shiftedIn_kept_add (s : State) (j : Nat) :
    shiftedIn s (s.cfg.len .aw - s.cfg.len .cb + j) = gshift (s.mem.elem .cb j) s.cfg.G := by
  simp [shiftedIn]

theorem ingestBlock_cells_aw (s : State) : (ingestBlock s).mem.AW = (List.range (s.cfg.len .aw)).map (shiftedIn s) := rfl

theorem read_ingestBlock_aw {s : State} {i : Nat} (h : i < s.cfg.len .aw) :
    (ingestBlock s).mem.read .aw i = some (shiftedIn s i) :=
  (Memory.read_fill_same s.mem .aw (s.cfg.len .aw) i (shiftedIn s)).trans (if_pos h)

theorem exec_ingest {s : State} (h : s.initDone = true) : exec .ingest s = .next (ingestBlock s) := by
  rw [exec_eq, after, State.gated_of_init h]

/-- Settles O22: INGEST past the gate fills `AW` with the shifted window. -/
theorem ingestShiftsInTheCaptureBuffer : Obligations.IngestShiftsInTheCaptureBuffer := by
  intro s hdone _ hle
  refine ⟨(ingestBlock s).mem, exec_ingest hdone, fun i hi => ?_, fun j hj => ⟨gshift (s.mem.elem .cb j) s.cfg.G, ?_, ?_⟩,
    Memory.sameExcept_fill _ _ _ _⟩
  · rw [read_ingestBlock_aw (by simp only [Config.len]; omega), shiftedIn_of_lt hi]
    rfl
  · rw [read_ingestBlock_aw (by simp only [Config.len]; omega)]
    exact congrArg some (shiftedIn_kept_add s j)
  · exact gshift_toInt _ _

/-! ### Landed and ingested blocks (R149) -/

theorem State.Full.elem_eq_getElem {s : State} {a : ArrayId} (h : s.Full a) {i : Nat} (hi : i < s.cfg.len a) :
    s.mem.elem a i = (s.mem.cells a)[i]'(h ▸ hi) :=
  Memory.elem_of_read (List.getElem?_eq_getElem _)

/-- With every element of `AW` and `CB` holding a value, the new window is the end of the old one and the gained buffer put together. -/
theorem ingestBlock_AW {s : State} (haw : s.Full .aw) (hcb : s.Full .cb) (hle : s.cfg.len .cb ≤ s.cfg.len .aw) :
    (ingestBlock s).mem.AW = (s.mem.AW ++ s.mem.CB.map fun x => gshift x s.cfg.G).drop (s.cfg.len .cb) := by
  have haw' : s.mem.AW.length = s.cfg.len .aw := haw
  have hcb' : s.mem.CB.length = s.cfg.len .cb := hcb
  rw [ingestBlock_cells_aw]
  refine List.ext_getElem (by simp [haw', hcb']) fun i hi _ => ?_
  rw [List.length_map, List.length_range] at hi
  rw [List.getElem_map, List.getElem_range, List.getElem_drop]
  by_cases hkept : i < s.cfg.len .aw - s.cfg.len .cb
  · rw [shiftedIn_of_lt hkept, haw.elem_eq_getElem (by omega), List.getElem_append_left (by omega)]
    simp [Memory.cells, Nat.add_comm]
  · obtain ⟨j, rfl⟩ := Nat.exists_eq_add_of_le (not_lt.mp hkept)
    rw [shiftedIn_kept_add, hcb.elem_eq_getElem (by omega), List.getElem_append_right (by omega), List.getElem_map]
    congr 2
    omega

/-- What `WindowIsTheLastSamplesIngested` asks of a state: past INIT, landings enabled, a block no longer than the window, and every
element of `AW` with a value. -/
structure State.Capturing (s : State) : Prop where
  initDone : s.initDone = true
  srcRunning : s.srcRunning = true
  notFaulted : s.runState ≠ .faulted
  step_le : s.cfg.S ≤ s.cfg.N
  window : (s.mem.AW.length : Int) = s.cfg.N

theorem State.Capturing.full_aw {s : State} (h : s.Capturing) : s.Full .aw := by
  have hwindow := h.window
  simp only [State.Full, Memory.cells, Config.len]
  omega

theorem State.Capturing.len_cb_le {s : State} (h : s.Capturing) : s.cfg.len .cb ≤ s.cfg.len .aw :=
  Int.toNat_le_toNat h.step_le

theorem State.Capturing.landed {s : State} (h : s.Capturing) {block : List Sample} (hlen : (block.length : Int) = s.cfg.S) :
    (land block s).Capturing := by
  rw [land_eq hlen]
  exact ⟨h.initDone, h.srcRunning, h.notFaulted, h.step_le, h.window⟩

theorem State.Capturing.ingested {s : State} (h : s.Capturing) : (ingestBlock s).Capturing := by
  have hlength : (ingestBlock s).mem.AW.length = s.mem.AW.length := by
    rw [ingestBlock_cells_aw, List.length_map, List.length_range]
    exact h.full_aw.symm
  exact ⟨h.initDone, h.srcRunning, h.notFaulted, h.step_le, hlength ▸ h.window⟩

/-- A block of `S` samples, landed and ingested, moves the window on by its length; the state captures as before. -/
theorem State.Capturing.ingest_offer {s : State} (h : s.Capturing) {block : List Sample}
    (hlen : (block.length : Int) = s.cfg.S) :
    ∃ t, exec .ingest (offer block s) = .next t ∧ t.Capturing ∧ t.cfg = s.cfg ∧
      t.mem.AW = (s.mem.AW ++ block.map fun x => gshift x s.cfg.G).drop block.length := by
  have hland := h.landed hlen
  refine ⟨ingestBlock (land block s), ?_, hland.ingested, land_cfg block s, ?_⟩
  · rw [offer_of_enabled h.srcRunning h.notFaulted, exec_ingest hland.initDone]
  · rw [ingestBlock_AW hland.full_aw (full_cb_land hlen) hland.len_cb_le, land_AW hlen, land_CB hlen, land_cfg,
      len_cb_of_block hlen]

theorem landAndIngest_cons {s t : State} {block : List Sample} {blocks : List (List Sample)}
    (h : exec .ingest (offer block s) = .next t) : landAndIngest (block :: blocks) s = landAndIngest blocks t := by
  rw [landAndIngest, h]

/-- The window after any sequence of blocks, by induction on them: what a block drops of the front, no later block sees. -/
theorem State.Capturing.window_after_blocks {s : State} (h : s.Capturing) {blocks : List (List Sample)}
    (hlen : ∀ b ∈ blocks, (b.length : Int) = s.cfg.S) :
    ∃ t, landAndIngest blocks s = .next t ∧
      t.mem.AW = (s.mem.AW ++ blocks.flatten.map fun x => gshift x s.cfg.G).drop (s.cfg.S.toNat * blocks.length) := by
  induction blocks generalizing s with
  | nil => exact ⟨s, rfl, by simp⟩
  | cons block blocks ih =>
    have hblock : (block.length : Int) = s.cfg.S := hlen block (by simp)
    obtain ⟨u, hexec, hu, hcfg, hAW⟩ := h.ingest_offer hblock
    obtain ⟨t, hrest, htAW⟩ := ih hu fun b hb => hcfg ▸ hlen b (.tail _ hb)
    refine ⟨t, (landAndIngest_cons hexec).trans hrest, ?_⟩
    have hS : s.cfg.S.toNat = block.length := by omega
    rw [htAW, hcfg, hAW, hS, ← List.drop_append_of_le_length (by simp), List.drop_drop, List.append_assoc, ← List.map_append,
      List.flatten_cons, List.length_cons, Nat.mul_succ, Nat.add_comm]

/-- Settles O23: the window as a list, read at an element. -/
theorem windowIsTheLastSamplesIngested : Obligations.WindowIsTheLastSamplesIngested := by
  intro s blocks hdone hsrc hrun _ hle haw hlen
  obtain ⟨t, hall, hAW⟩ := State.Capturing.window_after_blocks ⟨hdone, hsrc, hrun, hle, haw⟩ hlen
  exact ⟨t, hall, fun i _ => congrArg (·[i]?) hAW⟩

end Sys2Proof.Machine
end

section
/-! SUPPORT. The constant tables (42_spectral.md R171 to R173): the model's rational cosine is within 1e-11 of the real one, no entry of a
table is that near a rounding tie, so both round to the same integer. -/

namespace Sys2Proof.Machine

open Finset Real

/-! ### The Horner evaluation is the Taylor polynomial -/

/-- The number a numerator and a denominator stand for. -/
noncomputable def fractionValue (r : Int × Nat) : ℝ := r.1 / r.2

theorem cosHorner_den_pos (a : Nat) {b : Nat} (hb : 0 < b) (k j : Nat) : 0 < (cosHorner a b k (j + 1)).2 := by
  induction k generalizing j with
  | zero => exact Nat.one_pos
  | succ k ih => exact Nat.mul_pos (Nat.mul_pos (ih (j + 1)) hb) (Nat.mul_pos (by omega) (by omega))

/-- One step of Horner's rule as a real number. -/
theorem fractionValue_cosHorner_succ (a : Nat) {b : Nat} (hb : 0 < b) (k j : Nat) :
    fractionValue (cosHorner a b (k + 1) (j + 1)) =
      1 - a / b / ((2 * j + 1) * (2 * j + 2)) * fractionValue (cosHorner a b k (j + 2)) := by
  have hden := cosHorner_den_pos a hb k (j + 1)
  have hodd : 2 * (j + 1) - 1 = 2 * j + 1 := by omega
  simp only [fractionValue, cosHorner, hodd]
  push_cast
  field_simp

/-- `k` steps of Horner's rule from the `j + 1`-th on, brought to the scale of the whole series, are its terms from the `j`-th on. -/
theorem fractionValue_cosHorner (a : Nat) {b : Nat} (hb : 0 < b) (k j : Nat) :
    fractionValue (cosHorner a b k (j + 1)) / (2 * j).factorial =
      ∑ i ∈ range (k + 1), (-(a / b : ℝ)) ^ i / (2 * (j + i)).factorial := by
  induction k generalizing j with
  | zero => simp [fractionValue, cosHorner]
  | succ k ih =>
    have hfactorial : ((2 * (j + 1)).factorial : ℝ) = (2 * j + 2) * ((2 * j + 1) * (2 * j).factorial) := by
      rw [show 2 * (j + 1) = 2 * j + 1 + 1 by ring, Nat.factorial_succ, Nat.factorial_succ]
      push_cast
      ring
    have hshift : ∀ i, (-(a / b : ℝ)) ^ (i + 1) / (2 * (j + (i + 1))).factorial =
        -(a / b : ℝ) * ((-(a / b : ℝ)) ^ i / (2 * (j + 1 + i)).factorial) := by
      intro i
      rw [show j + (i + 1) = j + 1 + i by ring]
      ring
    rw [sum_range_succ']
    simp only [hshift]
    rw [← mul_sum, ← ih (j + 1), fractionValue_cosHorner_succ a hb, hfactorial]
    have := Nat.factorial_ne_zero (2 * j)
    simp only [pow_zero, add_zero]
    field_simp
    ring

/-! ### The Taylor polynomial is the cosine -/

/-- The real part of the exponential series of `x * i` has the even terms alone. -/
theorem re_exp_series_mul_I (x : ℝ) (k : Nat) :
    (∑ m ∈ range (2 * k), ((x : ℂ) * Complex.I) ^ m / (m.factorial : ℂ)).re =
      ∑ i ∈ range k, (-x ^ 2) ^ i / (2 * i).factorial := by
  induction k with
  | zero => simp
  | succ k ih =>
    have heven : ((x : ℂ) * Complex.I) ^ (2 * k) / ((2 * k).factorial : ℂ) = ((-x ^ 2) ^ k / (2 * k).factorial : ℝ) := by
      rw [pow_mul, mul_pow, Complex.I_sq]
      push_cast
      ring
    have hodd : ((x : ℂ) * Complex.I) ^ (2 * k + 1) / ((2 * k + 1).factorial : ℂ) =
        ((-x ^ 2) ^ k * x / (2 * k + 1).factorial : ℝ) * Complex.I := by
      rw [pow_succ, pow_mul, mul_pow, Complex.I_sq]
      push_cast
      ring
    rw [Nat.mul_succ, sum_range_succ, sum_range_succ, Complex.add_re, Complex.add_re, ih, heven, hodd, sum_range_succ,
      Complex.re_ofReal_mul, Complex.ofReal_re, Complex.I_re, mul_zero, add_zero]

theorem abs_cos_sub_taylor_le {x : ℝ} (hx : |x| ≤ 2) :
    |cos x - ∑ i ∈ range 14, (-x ^ 2) ^ i / (2 * i).factorial| ≤ 1 / 10 ^ 12 := by
  have hnorm : ‖(x : ℂ) * Complex.I‖ = |x| := by simp
  have hbound := Complex.exp_bound' (x := x * Complex.I) (n := 28) (by rw [hnorm]; norm_num; linarith)
  rw [← Complex.exp_ofReal_mul_I_re, ← re_exp_series_mul_I x 14, ← Complex.sub_re]
  refine (Complex.abs_re_le_norm _).trans (hbound.trans ?_)
  rw [hnorm]
  calc |x| ^ 28 / (Nat.factorial 28) * 2 ≤ 2 ^ 28 / (Nat.factorial 28) * 2 := by gcongr
    _ ≤ 1 / 10 ^ 12 := by norm_num [Nat.factorial]

/-- `π * k / n` at the model's 20 decimals of π. -/
noncomputable def modelAngle (k n : Nat) : ℝ := piDigits / piScale * (k / n)

theorem abs_pi_sub_piDigits_le : |π - piDigits / piScale| ≤ 1 / 10 ^ 12 := by
  have lower := pi_gt_d20
  have upper := pi_lt_d20
  rw [abs_le]
  norm_num [piDigits, piScale] at lower upper ⊢
  constructor <;> linarith

theorem scaled_size_sq_pos {n : Nat} (hn : 0 < n) : 0 < (piScale * n) ^ 2 := pow_pos (Nat.mul_pos (by decide) hn) 2

theorem cosFirstQuadrant_den_pos (k : Nat) {n : Nat} (hn : 0 < n) : 0 < (cosFirstQuadrant k n).2 :=
  cosHorner_den_pos _ (scaled_size_sq_pos hn) 13 0

theorem fractionValue_cosFirstQuadrant (k : Nat) {n : Nat} (hn : 0 < n) :
    fractionValue (cosFirstQuadrant k n) = ∑ i ∈ range 14, (-modelAngle k n ^ 2) ^ i / (2 * i).factorial := by
  have hhorner := fractionValue_cosHorner ((piDigits * k) ^ 2) (scaled_size_sq_pos hn) 13 0
  have hsquare : (((piDigits * k) ^ 2 : Nat) / ((piScale * n) ^ 2 : Nat) : ℝ) = modelAngle k n ^ 2 := by
    rw [modelAngle]
    push_cast
    ring
  rw [hsquare] at hhorner
  simpa [cosFirstQuadrant] using hhorner

/-- In the first quadrant the model's fraction is the cosine, to within 1e-11: the Taylor remainder and the digits of π left out. -/
theorem abs_cosFirstQuadrant_sub_cos_le {k n : Nat} (hn : 0 < n) (hk : 2 * k ≤ n) :
    |fractionValue (cosFirstQuadrant k n) - cos (π * k / n)| ≤ 1 / 10 ^ 11 := by
  have hratio : (0 : ℝ) ≤ k / n := by positivity
  have hhalf : (k / n : ℝ) ≤ 1 / 2 := by
    rw [div_le_div_iff₀ (Nat.cast_pos.mpr hn) two_pos]
    exact_mod_cast (by omega : k * 2 ≤ 1 * n)
  have htaylor : |fractionValue (cosFirstQuadrant k n) - cos (modelAngle k n)| ≤ 1 / 10 ^ 12 := by
    rw [fractionValue_cosFirstQuadrant k hn, abs_sub_comm]
    refine abs_cos_sub_taylor_le ?_
    rw [modelAngle, abs_of_nonneg (by positivity)]
    norm_num [piDigits, piScale]
    linarith
  have hpi : |cos (modelAngle k n) - cos (π * k / n)| ≤ 1 / 10 ^ 12 := by
    refine (abs_cos_sub_cos_le _ _).trans ?_
    rw [abs_sub_comm, modelAngle, mul_div_assoc, ← sub_mul, abs_mul, abs_of_nonneg hratio]
    exact (mul_le_of_le_one_right (abs_nonneg _) (hhalf.trans (by norm_num))).trans abs_pi_sub_piDigits_le
  calc |fractionValue (cosFirstQuadrant k n) - cos (π * k / n)|
      ≤ |fractionValue (cosFirstQuadrant k n) - cos (modelAngle k n)| + |cos (modelAngle k n) - cos (π * k / n)| :=
        abs_sub_le _ _ _
    _ ≤ 1 / 10 ^ 12 + 1 / 10 ^ 12 := add_le_add htaylor hpi
    _ ≤ 1 / 10 ^ 11 := by norm_num

/-! ### Rounding away from ties (R13, R14) -/

/-- A number less than a half from an integer rounds to it. -/
theorem floor_add_half_eq {x : ℝ} {z : Int} (h : |x - z| < 1 / 2) : ⌊x + 1 / 2⌋ = z := by
  obtain ⟨lower, upper⟩ := abs_lt.mp h
  rw [Int.floor_eq_iff]
  constructor <;> linarith

/-- A negative one rounds to it through its magnitude. -/
theorem neg_floor_neg_add_half_eq {x : ℝ} {z : Int} (h : |x - z| < 1 / 2) : -⌊-x + 1 / 2⌋ = z := by
  have hneg : |-x - ((-z : Int) : ℝ)| < 1 / 2 := by
    rwa [Int.cast_neg, neg_sub_neg, abs_sub_comm]
  rw [floor_add_half_eq hneg, neg_neg]

theorem two_mul_add_ediv_eq_floor (num : Int) {den : Nat} (hden : 0 < den) :
    (2 * num + den) / (2 * den) = ⌊(num / den : ℝ) + 1 / 2⌋ := by
  have hden' : (0 : ℝ) < den := Nat.cast_pos.mpr hden
  have hfraction : (num / den + 1 / 2 : ℝ) = ((2 * num + den : Int) : ℝ) / ((2 * den : Nat) : ℝ) := by
    push_cast
    field_simp
  rw [hfraction, Int.floor_div_natCast, Int.floor_intCast]
  push_cast
  rfl

/-- The model's rounding, near an integer. -/
theorem rndDiv_eq {num : Int} {den : Nat} (hden : 0 < den) {z : Int} (h : |(num / den : ℝ) - z| < 1 / 2) : rndDiv num den = z := by
  unfold rndDiv
  split
  · rw [two_mul_add_ediv_eq_floor (-num) hden]
    push_cast
    rw [neg_div]
    exact neg_floor_neg_add_half_eq h
  · rw [two_mul_add_ediv_eq_floor num hden]
    exact floor_add_half_eq h

/-- `q15` of a fraction, near an integer number of LSBs. -/
theorem q15_toInt {num : Int} {den : Nat} (hden : 0 < den) {z : Int} (h : |32768 * (num / den : ℝ) - z| < 1 / 2) :
    (q15 num den).toInt = clamp z (-32768) 32767 := by
  rw [q15, sat16_toInt, rndDiv_eq hden]
  push_cast
  rwa [mul_div_assoc]

/-- `scale` times the fraction is at least 1/4096 away from every rounding tie. -/
def clearOfTies (scale : Nat) (r : Int × Nat) : Bool :=
  decide (2 * (r.2 : Int) ≤ 4096 * ((2 * scale * r.1 + r.2) % (2 * r.2)) ∧
    4096 * ((2 * scale * r.1 + r.2) % (2 * r.2)) ≤ 4095 * (2 * (r.2 : Int)))

theorem exists_nearest_of_clearOfTies {scale : Nat} {r : Int × Nat} (hden : 0 < r.2) (h : clearOfTies scale r = true) :
    ∃ z : Int, |scale * fractionValue r - z| ≤ 1 / 2 - 1 / 4096 := by
  obtain ⟨num, den⟩ := r
  have hden' : (0 : ℝ) < den := Nat.cast_pos.mpr hden
  obtain ⟨lower, upper⟩ := of_decide_eq_true h
  have hdivision := Int.emod_add_mul_ediv (2 * scale * num + den) (2 * den)
  generalize (2 * scale * num + den) % (2 * den : Int) = rest at *
  generalize (2 * scale * num + den) / (2 * den : Int) = z at *
  refine ⟨z, ?_⟩
  have hrest : (scale * fractionValue (num, den) - z : ℝ) = rest / (2 * den) - 1 / 2 := by
    have hcast : (rest + 2 * den * z : ℝ) = 2 * scale * num + den := by exact_mod_cast hdivision
    rw [fractionValue]
    field_simp
    linarith
  have lower' : (1 / 4096 : ℝ) ≤ rest / (2 * den) := by
    rw [div_le_div_iff₀ (by norm_num) (by positivity)]
    exact_mod_cast (by linarith : 1 * (2 * (den : Int)) ≤ rest * 4096)
  have upper' : (rest / (2 * den) : ℝ) ≤ 4095 / 4096 := by
    rw [div_le_div_iff₀ (by positivity) (by norm_num)]
    exact_mod_cast (by linarith : rest * 4096 ≤ 4095 * (2 * (den : Int)))
  rw [hrest, abs_le]
  constructor <;> linarith

/-! ### The cosine of a turn -/

theorem cosTurn_den_pos (m : Nat) {n : Nat} (hn : 0 < n) : 0 < (cosTurn m n).2 := by
  simp only [cosTurn]
  split
  · exact cosFirstQuadrant_den_pos _ hn
  · exact cosFirstQuadrant_den_pos _ hn

theorem fractionValue_neg (num : Int) (den : Nat) : fractionValue (-num, den) = -fractionValue (num, den) := by
  simp [fractionValue, neg_div]

/-- The second half of a turn mirrors the first. -/
theorem cos_turn_eq_cos_min {m n : Nat} (hm : m < n) : cos (2 * π * m / n) = cos (π * (2 * min m (n - m) : Nat) / n) := by
  have hn' : (n : ℝ) ≠ 0 := Nat.cast_ne_zero.mpr (by omega)
  rcases le_total m (n - m) with h | h
  · rw [min_eq_left h]
    congr 1
    push_cast
    ring
  · rw [min_eq_right h, ← cos_two_pi_sub]
    congr 1
    push_cast [hm.le]
    field_simp

/-- The second quadrant is the first with the sign turned. -/
theorem cos_eq_neg_cos_sub {k n : Nat} (hk : k ≤ n) (hn : 0 < n) : cos (π * k / n) = -cos (π * (n - k : Nat) / n) := by
  have hn' : (n : ℝ) ≠ 0 := Nat.cast_ne_zero.mpr (by omega)
  rw [← cos_pi_sub]
  congr 1
  push_cast [hk]
  field_simp
  ring

/-- An entry of the table and the cosine it stands for are, up to one common sign, at an even place of the first quadrant. -/
theorem cosTurn_folds {m n : Nat} (heven : n % 2 = 0) (hm : m < n) :
    ∃ j, 2 * (2 * j) ≤ n ∧
      ((fractionValue (cosTurn m n) = fractionValue (cosFirstQuadrant (2 * j) n) ∧
        cos (2 * π * m / n) = cos (π * (2 * j : Nat) / n)) ∨
       (fractionValue (cosTurn m n) = -fractionValue (cosFirstQuadrant (2 * j) n) ∧
        cos (2 * π * m / n) = -cos (π * (2 * j : Nat) / n))) := by
  simp only [cosTurn, Nat.mod_eq_of_lt hm]
  rw [cos_turn_eq_cos_min hm]
  split
  · next h => exact ⟨min m (n - m), h, .inl ⟨rfl, rfl⟩⟩
  · next h =>
    obtain ⟨j, hj⟩ : ∃ j, n - 2 * min m (n - m) = 2 * j := ⟨n / 2 - min m (n - m), by omega⟩
    rw [cos_eq_neg_cos_sub (by omega) (by omega), hj]
    exact ⟨j, by omega, .inr ⟨fractionValue_neg _ _, rfl⟩⟩

/-! ### The tables (R171, R172) -/

/-- The supported transform sizes (R189), as numbers of entries. -/
def supportedSizes : List Nat := [32, 64, 128, 256, 512, 1024]

/-- What a rounded entry multiplies its cosine by: 32768 in `TW`, half of it in `WT`. -/
def tableScales : List Nat := [32768, 16384]

/-- R171's note that no entry is near a tie, which the spec too has from computing every entry. -/
theorem cosFirstQuadrant_clearOfTies :
    ∀ n ∈ supportedSizes, ∀ j < n / 4 + 1, ∀ scale ∈ tableScales, clearOfTies scale (cosFirstQuadrant (2 * j) n) = true := by
  decide +kernel

theorem four_dvd_of_supported {n : Nat} (hn : n ∈ supportedSizes) : 4 ∣ n := by
  revert n
  decide

/-- Two numbers within 1e-11 of each other, scaled up, have the nearest integer of the one that is clear of ties in common. -/
theorem nearest_of_near {scale : Nat} (hscale : scale ≤ 32768) {x y : ℝ} {z : Int} (hx : |scale * x - z| ≤ 1 / 2 - 1 / 4096)
    (hxy : |x - y| ≤ 1 / 10 ^ 11) : |scale * x - z| < 1 / 2 ∧ |scale * y - z| < 1 / 2 := by
  have hscale' : (scale : ℝ) ≤ 32768 := by exact_mod_cast hscale
  have hdiff : |scale * y - scale * x| ≤ 32768 * (1 / 10 ^ 11) := by
    rw [← mul_sub, abs_mul, Nat.abs_cast, abs_sub_comm]
    exact mul_le_mul hscale' hxy (abs_nonneg _) (by norm_num)
  constructor
  · linarith
  · have htriangle := abs_sub_le (scale * y) (scale * x) z
    norm_num at hdiff
    linarith

/-- Every entry's fraction and its cosine have one nearest integer, at the scale of `TW` and at that of `WT`. -/
theorem cosTurn_nearest {m n scale : Nat} (hn : n ∈ supportedSizes) (hm : m < n) (hscale : scale ∈ tableScales) :
    ∃ z : Int, |scale * fractionValue (cosTurn m n) - z| < 1 / 2 ∧ |scale * cos (2 * π * m / n) - z| < 1 / 2 := by
  obtain ⟨j, hj, hfold⟩ := cosTurn_folds (by have := four_dvd_of_supported hn; omega) hm
  have hmax : ∀ scale ∈ tableScales, scale ≤ 32768 := by decide
  have hclear := cosFirstQuadrant_clearOfTies n hn j (by omega) scale hscale
  obtain ⟨z, hz⟩ := exists_nearest_of_clearOfTies (cosFirstQuadrant_den_pos (2 * j) (by omega)) hclear
  obtain ⟨hfraction, hcos⟩ := nearest_of_near (hmax scale hscale) hz (abs_cosFirstQuadrant_sub_cos_le (by omega) hj)
  obtain ⟨hvalue, hturn⟩ | ⟨hvalue, hturn⟩ := hfold
  · exact ⟨z, hvalue ▸ hfraction, hturn ▸ hcos⟩
  · refine ⟨-z, ?_, ?_⟩
    · rwa [hvalue, Int.cast_neg, mul_neg, neg_sub_neg, abs_sub_comm]
    · rwa [hturn, Int.cast_neg, mul_neg, neg_sub_neg, abs_sub_comm]

theorem exists_supportedSize {c : Config} (hN : c.N ∈ [(32 : Int), 64, 128, 256, 512, 1024]) :
    ∃ n ∈ supportedSizes, c.N = (n : Int) := by
  simp only [List.mem_cons, List.not_mem_nil, or_false] at hN
  refine ⟨c.N.toNat, ?_, by omega⟩
  simp only [supportedSizes, List.mem_cons, List.not_mem_nil, or_false]
  omega

/-- Settles O31: the model's fraction and the cosine round to their common nearest integer. -/
theorem twiddleTableIsTheExactCosine : Obligations.TwiddleTableIsTheExactCosine := by
  intro c m hN hm
  obtain ⟨n, hn, hc⟩ := exists_supportedSize hN
  rw [hc, Int.ofNat_lt] at hm
  obtain ⟨z, hfraction, hcos⟩ := cosTurn_nearest hn hm (show 32768 ∈ tableScales by decide)
  push_cast at hfraction hcos
  rw [Config.twiddle, hc, Int.toNat_natCast, q15Cos, q15_toInt (cosTurn_den_pos m (by omega)) hfraction, Int.cast_natCast,
    floor_add_half_eq hcos, neg_floor_neg_add_half_eq hcos, ite_self]
  rfl

/-- The raised cosine, `1/2 * (1 - x)`, is nearest to `16384 - z` LSBs where 16384 of its cosine are nearest to `z`. -/
theorem nearest_raised {x : ℝ} {z : Int} (h : |16384 * x - z| < 1 / 2) :
    |32768 * (1 / 2 * (1 - x)) - (16384 - z : Int)| < 1 / 2 := by
  rw [abs_sub_comm]
  push_cast
  convert h using 2
  ring

theorem fractionValue_raised {r : Int × Nat} (hden : 0 < r.2) :
    ((r.2 - r.1 : Int) / (2 * r.2 : Nat) : ℝ) = 1 / 2 * (1 - fractionValue r) := by
  have hden' : (r.2 : ℝ) ≠ 0 := Nat.cast_ne_zero.mpr hden.ne'
  rw [fractionValue]
  push_cast
  field_simp

/-- Settles O32: the model's fraction and the raised cosine round to their common nearest integer. -/
theorem windowTableIsTheExactRaisedCosine : Obligations.WindowTableIsTheExactRaisedCosine := by
  intro c i hN hi
  obtain ⟨n, hn, hc⟩ := exists_supportedSize hN
  rw [hc, Int.ofNat_lt] at hi
  obtain ⟨z, hfraction, hcos⟩ := cosTurn_nearest hn hi (show 16384 ∈ tableScales by decide)
  have hden := cosTurn_den_pos i (by omega : 0 < n)
  have hround := floor_add_half_eq (nearest_raised (by exact_mod_cast hcos))
  have hnonneg : 0 ≤ 16384 - z := by
    rw [← hround]
    have := cos_le_one (2 * π * i / n)
    positivity
  have hnearest := nearest_raised (by exact_mod_cast hfraction)
  rw [← fractionValue_raised hden] at hnearest
  rw [Config.windowCoeff, hc, Int.toNat_natCast, q15RaisedCos, q15_toInt (Nat.mul_pos two_pos hden) hnearest, Int.cast_natCast,
    hround, clamp, max_eq_left (by omega)]

/-! ### The shape of the window (R173) -/

theorem cosTurn_symm {n i : Nat} (hi : i < n) : cosTurn ((n - i) % n) n = cosTurn i n := by
  have hmin : min ((n - i) % n) (n - (n - i) % n) = min i (n - i) := by
    rcases Nat.eq_zero_or_pos i with rfl | hpos
    · simp
    · rw [Nat.mod_eq_of_lt (by omega), min_comm]
      congr 1
      omega
  simp only [cosTurn, Nat.mod_mod, Nat.mod_eq_of_lt hi, hmin]

/-- Beside the middle of a window of up to 256 entries the raised cosine stays far enough below 1 to round below 32767. -/
theorem raised_cosine_lt_of_ne_middle {n i : Nat} (hn : n ≤ 256) (heven : n % 2 = 0) (hi : i < n) (hmiddle : i ≠ n / 2) :
    32768 * (1 / 2 * (1 - cos (2 * π * i / n))) + 1 / 2 < 32767 := by
  have hn' : (0 : ℝ) < n := Nat.cast_pos.mpr (by omega)
  set offset : ℝ := (n - 2 * i) / n with hoffset
  have hmirror : cos (2 * π * i / n) = -cos (π * offset) := by
    rw [← cos_pi_sub]
    congr 1
    rw [hoffset]
    field_simp
    ring
  have hrange : |offset| ≤ 1 := by
    rw [hoffset, abs_div, abs_of_pos hn', div_le_one hn', abs_le]
    have : (i : ℝ) ≤ n := by exact_mod_cast hi.le
    have : (0 : ℝ) ≤ i := Nat.cast_nonneg i
    constructor <;> linarith
  have hfar : (1 / 16384 : ℝ) ≤ offset ^ 2 := by
    have hdistance : (2 : ℝ) ^ 2 ≤ (n - 2 * i) ^ 2 := by
      rw [sq_le_sq]
      have : (2 : Int) ≤ |(n : Int) - 2 * i| := by rw [le_abs]; omega
      rw [abs_two]
      exact_mod_cast this
    have hsize : (n : ℝ) ^ 2 ≤ 256 ^ 2 := by gcongr; exact_mod_cast hn
    rw [hoffset, div_pow, div_le_div_iff₀ (by norm_num) (by positivity)]
    linarith
  have hquadratic := cos_le_one_sub_mul_cos_sq (x := π * offset) (by
    rw [abs_mul, abs_of_pos pi_pos]
    exact mul_le_of_le_one_right pi_pos.le hrange)
  have hpi : 2 / π ^ 2 * (π * offset) ^ 2 = 2 * offset ^ 2 := by field_simp
  rw [hmirror]
  linarith

/-- R171's formula for a size given as a number of entries. -/
theorem windowCoeff_toInt {c : Config} {n i : Nat} (hc : c.N = n) (hn : n ∈ supportedSizes) (hi : i < n) :
    (c.windowCoeff i).toInt = min ⌊32768 * (1 / 2 * (1 - cos (2 * π * i / n))) + 1 / 2⌋ 32767 := by
  have hexact := windowTableIsTheExactRaisedCosine c i (hc ▸ List.mem_map_of_mem (f := Int.ofNat) hn) (by omega)
  rwa [hc, Int.cast_natCast] at hexact

theorem pos_of_supported {n : Nat} (hn : n ∈ supportedSizes) : 0 < n := by
  revert n
  decide

theorem windowCoeff_zero {c : Config} {n : Nat} (hc : c.N = n) (hn : n ∈ supportedSizes) : c.windowCoeff 0 = 0 := by
  have hzero : (c.windowCoeff 0).toInt = 0 := by
    rw [windowCoeff_toInt hc hn (pos_of_supported hn)]
    norm_num
  exact BitVec.eq_of_toInt_eq hzero

theorem windowCoeff_middle {c : Config} {n : Nat} (hc : c.N = n) (hn : n ∈ supportedSizes) :
    (c.windowCoeff (n / 2)).toInt = 32767 := by
  have hpos := pos_of_supported hn
  have hhalf : 2 * π * (n / 2 : Nat) / n = π := by
    have hn' : (n : ℝ) ≠ 0 := Nat.cast_ne_zero.mpr hpos.ne'
    rw [Nat.cast_div ((by decide : 2 ∣ 4).trans (four_dvd_of_supported hn)) two_ne_zero]
    field_simp
    norm_num
  rw [windowCoeff_toInt hc hn (by omega), hhalf, cos_pi]
  norm_num

theorem windowCoeff_range {c : Config} {n i : Nat} (hc : c.N = n) (hn : n ∈ supportedSizes) (hi : i < n) :
    0 ≤ (c.windowCoeff i).toInt ∧ (c.windowCoeff i).toInt ≤ 32767 := by
  have hcos := cos_le_one (2 * π * i / n)
  rw [windowCoeff_toInt hc hn hi]
  exact ⟨le_min (by positivity) (by decide), min_le_right _ _⟩

/-- Settles O33: by the exact cosine at 0 and at half a turn, the fold of the second half of a turn, and the distance of the raised
cosine from 1 elsewhere. -/
theorem windowTableIsSymmetric : Obligations.WindowTableIsSymmetric := by
  intro c n hc hn
  refine ⟨windowCoeff_zero hc hn, windowCoeff_middle hc hn, fun i hi => ?_⟩
  obtain ⟨lower, upper⟩ := windowCoeff_range hc hn hi
  refine ⟨?_, lower, upper, fun hsmall hsaturated => ?_⟩
  · rw [Config.windowCoeff, Config.windowCoeff, hc, Int.toNat_natCast, q15RaisedCos, q15RaisedCos, cosTurn_symm hi]
  · by_contra hmiddle
    have heven : n % 2 = 0 := by have := four_dvd_of_supported hn; omega
    have hbelow := Int.floor_lt.mpr (by exact_mod_cast raised_cosine_lt_of_ne_middle hsmall heven hi hmiddle)
    rw [windowCoeff_toInt hc hn hi] at hsaturated
    exact hbelow.not_ge (min_eq_right_iff.mp hsaturated)

/-! ### The twiddle table at three quarters of a turn -/

theorem cos_three_quarters_of_turn {n : Nat} (hn : 0 < n) (hfour : 4 ∣ n) : cos (2 * π * (3 * n / 4 : Nat) / n) = 0 := by
  have hn' : (n : ℝ) ≠ 0 := Nat.cast_ne_zero.mpr hn.ne'
  have hangle : 2 * π * (3 * n / 4 : Nat) / n = π / 2 + π := by
    rw [Nat.cast_div (hfour.mul_left 3) (by norm_num)]
    push_cast
    field_simp
    ring
  rw [hangle, cos_add_pi, cos_pi_div_two, neg_zero]

/-- `TW[3N/4]` is 0 at every supported size, as its cosine is. -/
theorem twiddle_three_quarters_of_supported {c : Config} (hN : c.N ∈ [(32 : Int), 64, 128, 256, 512, 1024]) :
    c.twiddle (3 * c.N.toNat / 4 % c.N.toNat) = 0#16 := by
  obtain ⟨n, hn, hc⟩ := exists_supportedSize hN
  have hpos := pos_of_supported hn
  have hlt : 3 * n / 4 < n := by omega
  have hexact := twiddleTableIsTheExactCosine c (3 * n / 4) hN (by rw [hc]; exact_mod_cast hlt)
  rw [hc, Int.cast_natCast, cos_three_quarters_of_turn hpos (four_dvd_of_supported hn)] at hexact
  rw [hc, Int.toNat_natCast, Nat.mod_eq_of_lt hlt]
  refine BitVec.eq_of_toInt_eq (hexact.trans ?_)
  norm_num

end Sys2Proof.Machine
end

section
/-! SUPPORT. The spectral pipeline (42_spectral.md): what WINDOW (R176), RFFT (R180 to R183) and CMAG (R186) write, and what the three in
order depend on (R188). -/

namespace Sys2Proof.Machine

/-! ### WINDOW -/

theorem exec_window {s : State} (h : s.initDone = true) : exec .window s = .next (windowFrame s) := by
  rw [exec_eq, after, State.gated_of_init h]

theorem read_windowFrame_wf (s : State) (i : Nat) :
    (windowFrame s).mem.read .wf i =
      if i < s.cfg.len .wf then some (qmul (s.mem.elem .aw i) (s.mem.elem .wt i)) else none :=
  Memory.read_fill_same s.mem .wf _ i _

/-- Settles O25: WINDOW past the gate fills `WF` with Q15 products. -/
theorem windowMultipliesElementwise : Obligations.WindowMultipliesElementwise := by
  intro s hdone
  refine ⟨(windowFrame s).mem, exec_window hdone, fun i hi => ⟨qmul (s.mem.elem .aw i) (s.mem.elem .wt i), ?_, ?_⟩,
    Memory.sameExcept_fill _ _ _ _⟩
  · rw [read_windowFrame_wf]
    exact if_pos hi
  · exact qmul_toInt _ _

/-! ### RFFT -/

theorem exec_rfft {s : State} (h : s.initDone = true) : exec .rfft s = .next (transformFrame s) := by
  rw [exec_eq, after, State.gated_of_init h]

theorem read_transformFrame_sc (s : State) (j : Nat) :
    (transformFrame s).mem.read .sc j = if j < s.cfg.len .sc then some (s.spectrum j) else none :=
  Memory.read_fill_same s.mem .sc _ j _

theorem correlate_eq_sum (s : State) (k phase : Nat) :
    s.correlate k phase =
      ∑ n ∈ Finset.range s.cfg.N.toNat, s.val .wf n * (s.cfg.twiddle ((k * n + phase) % s.cfg.N.toNat)).toInt := rfl

theorem spectrum_even (s : State) (k : Nat) : s.spectrum (2 * k) = s.scaleBin (s.accRe k) := by
  simp [State.spectrum]

theorem spectrum_odd (s : State) (k : Nat) : s.spectrum (2 * k + 1) = s.scaleBin (s.accIm k) := by
  rw [State.spectrum, if_neg (by omega), show (2 * k + 1) / 2 = k by omega]

/-- The scaling of a bin in integer arithmetic: half an LSB of the result added, floor division, saturation. -/
theorem scaleBin_toInt (s : State) (acc : Int) :
    (s.scaleBin acc).toInt = clamp ((acc + 2 ^ (14 + s.cfg.L)) / 2 ^ (15 + s.cfg.L)) (-32768) 32767 := by
  rw [State.scaleBin, sat16_toInt, rshr, asr, show 15 + s.cfg.L - 1 = 14 + s.cfg.L by omega]

/-- Settles O27: the two accumulators of a bin as sums over the frame, each scaled once. -/
theorem rfftIsTheScaledDirectDft : Obligations.RfftIsTheScaledDirectDft := by
  intro s L hdone hN _ _
  have hsize : s.cfg.N.toNat = 2 ^ L := by rw [hN]; exact_mod_cast Int.toNat_natCast (2 ^ L)
  have hL : s.cfg.L = L := by rw [Config.L, hsize, Nat.log2_two_pow]
  have hread : ∀ j < 2 ^ L, (transformFrame s).mem.read .sc j = some (s.spectrum j) := fun j hj =>
    (read_transformFrame_sc s j).trans (if_pos (hj.trans_eq hsize.symm))
  refine ⟨(transformFrame s).mem, exec_rfft hdone, fun k hk => ⟨_, _, hread _ (by omega), hread _ (by omega), ?_, ?_⟩,
    Memory.sameExcept_fill _ _ _ _⟩
  · rw [spectrum_even, scaleBin_toInt, hL, State.accRe, correlate_eq_sum, hsize]
    rfl
  · rw [spectrum_odd, scaleBin_toInt, hL, State.accIm, correlate_eq_sum, hsize]
    rfl

/-- Every term of the imaginary accumulator of bin 0 has the factor `TW[3N/4]`. -/
theorem accIm_zero_of_supported {s : State} (hN : s.cfg.N ∈ [(32 : Int), 64, 128, 256, 512, 1024]) : s.accIm 0 = 0 := by
  simp [State.accIm, State.correlate, twiddle_three_quarters_of_supported hN]

/-- Settles O28: the imaginary accumulator of bin 0 is 0, and so is its scaled value. -/
theorem rfftBinZeroIsReal : Obligations.RfftBinZeroIsReal := by
  intro s t hdone hN hexec
  obtain rfl : transformFrame s = t := Host.Outcome.next.inj ((exec_rfft hdone).symm.trans hexec)
  have hlen : 1 < s.cfg.len .sc := by
    simp only [List.mem_cons, List.not_mem_nil, or_false] at hN
    simp only [Config.len]
    omega
  rw [read_transformFrame_sc, if_pos hlen, spectrum_odd s 0, accIm_zero_of_supported hN, scaleBin_zero]
  rfl

/-- A sum of `N` products of two samples is at most `N * 2^30` in magnitude. -/
theorem abs_correlate_le {s : State} (hN : 0 ≤ s.cfg.N) (k phase : Nat) : |s.correlate k phase| ≤ s.cfg.N * 2 ^ 30 := by
  have hterm : ∀ n ∈ Finset.range s.cfg.N.toNat,
      |s.val .wf n * (s.cfg.twiddle ((k * n + phase) % s.cfg.N.toNat)).toInt| ≤ 2 ^ 30 := fun n _ => by
    rw [abs_mul]
    exact mul_le_mul (abs_toInt_le _) (abs_toInt_le _) (abs_nonneg _) (by decide)
  rw [correlate_eq_sum]
  calc |∑ n ∈ Finset.range s.cfg.N.toNat, s.val .wf n * (s.cfg.twiddle ((k * n + phase) % s.cfg.N.toNat)).toInt|
      ≤ _ := Finset.abs_sum_le_sum_abs _ _
    _ ≤ s.cfg.N.toNat • 2 ^ 30 := by simpa using Finset.sum_le_card_nsmul _ _ _ hterm
    _ = s.cfg.N * 2 ^ 30 := by rw [nsmul_eq_mul, Int.toNat_of_nonneg hN]

/-- Settles O29: both accumulators are such sums, up to sign. -/
theorem rfftAccumulatorFitsFortyTwoBits : Obligations.RfftAccumulatorFitsFortyTwoBits := by
  intro s k hN
  simp only [List.mem_cons, List.not_mem_nil, or_false] at hN
  have hnonneg : 0 ≤ s.cfg.N := by omega
  refine ⟨abs_correlate_le hnonneg _ _, ?_, by omega⟩
  rw [State.accIm, abs_neg]
  exact abs_correlate_le hnonneg _ _

/-! ### CMAG -/

theorem exec_cmag {s : State} (h : s.initDone = true) : exec .cmag s = .next (magnitudes s) := by
  rw [exec_eq, after, State.gated_of_init h]

theorem read_magnitudes_ms (s : State) (k : Nat) :
    (magnitudes s).mem.read .ms k =
      if k < s.cfg.len .ms then some (magnitude (s.val .sc (2 * k)) (s.val .sc (2 * k + 1))) else none :=
  Memory.read_fill_same s.mem .ms _ k _

theorem magnitude_toInt (re im : Int) : (magnitude re im).toInt = min (isqrt (re * re + im * im).toNat : Int) 32767 := by
  rw [magnitude, BitVec.toInt_ofNat', Int.bmod_def]
  omega

/-- The floor root of a number that is not negative, by its two inequalities (R16). -/
theorem isqrt_toNat_spec {v : Int} (hv : 0 ≤ v) :
    (isqrt v.toNat : Int) * isqrt v.toNat ≤ v ∧ v < ((isqrt v.toNat : Int) + 1) * (isqrt v.toNat + 1) := by
  lift v to Nat using hv
  exact_mod_cast isqrt_spec v

/-- Settles O30: a magnitude is the saturated floor root of a sum of two squares. -/
theorem cmagIsTheFloorSquareRoot : Obligations.CmagIsTheFloorSquareRoot := by
  intro s hdone
  exact ⟨(magnitudes s).mem, exec_cmag hdone, fun k hk => ⟨_, _, (read_magnitudes_ms s k).trans (if_pos hk), magnitude_toInt _ _,
    isqrt_toNat_spec (add_nonneg (mul_self_nonneg _) (mul_self_nonneg _))⟩, Memory.sameExcept_fill _ _ _ _⟩

/-! ### ANALYZE (R188) -/

/-- Two states agree on the elements of an array that the configuration of the first gives it. -/
def State.AgreeOn (a : ArrayId) (s t : State) : Prop := ∀ i, i < s.cfg.len a → s.mem.read a i = t.mem.read a i

theorem State.AgreeOn.elem_eq {a : ArrayId} {s t : State} (h : State.AgreeOn a s t) {i : Nat} (hi : i < s.cfg.len a) :
    s.mem.elem a i = t.mem.elem a i := by
  rw [Memory.elem, h i hi, Memory.elem]

theorem windowFrame_agree {s t : State} (hcfg : s.cfg = t.cfg) (haw : State.AgreeOn .aw s t) (hwt : State.AgreeOn .wt s t) :
    State.AgreeOn .wf (windowFrame s) (windowFrame t) := by
  intro i hi
  have hi' : i < s.cfg.N.toNat := hi
  rw [read_windowFrame_wf, read_windowFrame_wf, haw.elem_eq hi', hwt.elem_eq hi', hcfg]

theorem correlate_congr {s t : State} (hcfg : s.cfg = t.cfg) (hwf : State.AgreeOn .wf s t) (k phase : Nat) :
    s.correlate k phase = t.correlate k phase := by
  rw [correlate_eq_sum, correlate_eq_sum, ← hcfg]
  refine Finset.sum_congr rfl fun n hn => ?_
  rw [State.val, hwf.elem_eq (Finset.mem_range.mp hn), State.val]

theorem transformFrame_agree {s t : State} (hcfg : s.cfg = t.cfg) (hwf : State.AgreeOn .wf s t) :
    State.AgreeOn .sc (transformFrame s) (transformFrame t) := by
  intro j _
  have hspectrum : s.spectrum j = t.spectrum j := by
    simp only [State.spectrum, State.scaleBin, State.accRe, State.accIm, correlate_congr hcfg hwf, hcfg]
  rw [read_transformFrame_sc, read_transformFrame_sc, hspectrum, hcfg]

theorem read_magnitudes_congr {s t : State} (hcfg : s.cfg = t.cfg) (hsc : State.AgreeOn .sc s t) (k : Nat) :
    (magnitudes s).mem.read .ms k = (magnitudes t).mem.read .ms k := by
  rw [read_magnitudes_ms, read_magnitudes_ms, ← hcfg]
  refine ite_congr rfl (fun hk => ?_) fun _ => rfl
  have hk' : k < s.cfg.N.toNat / 2 := hk
  rw [State.val, State.val, hsc.elem_eq (show 2 * k < s.cfg.N.toNat by omega),
    hsc.elem_eq (show 2 * k + 1 < s.cfg.N.toNat by omega)]
  rfl

theorem execAll_analyze {s : State} (h : s.initDone = true) :
    execAll [.window, .rfft, .cmag] s = .next (magnitudes (transformFrame (windowFrame s))) := by
  simp only [execAll, exec_window h, exec_rfft (s := windowFrame s) h, exec_cmag (s := transformFrame (windowFrame s)) h]

/-- Settles O34: each of the three commands carries the agreement on what it reads to what it writes. -/
theorem analyzeDependsOnlyOnWindowAndTable : Obligations.AnalyzeDependsOnlyOnWindowAndTable := by
  intro s t hcfg hs ht hagree
  refine ⟨_, _, execAll_analyze hs, execAll_analyze ht, read_magnitudes_congr hcfg (transformFrame_agree hcfg ?_)⟩
  exact windowFrame_agree hcfg (fun i hi => (hagree i hi).1) fun i hi => (hagree i hi).2

end Sys2Proof.Machine
end

section
/-! SUPPORT. The colour mapper (43_color_map.md): the range of the index and its rounding (R221), its growth and its end values (R223), and
what MAP writes (R225). -/

namespace Sys2Proof.Machine

/-! ### The index (R221) -/

theorem clamp_mono {x y lo hi : Int} (h : x ≤ y) : clamp x lo hi ≤ clamp y lo hi := min_le_min_right hi (max_le_max_right lo h)

theorem clamp_of_ge {x lo hi : Int} (h : lo ≤ hi) (hx : hi ≤ x) : clamp x lo hi = hi := by
  rw [clamp, max_eq_left (h.trans hx), min_eq_right hx]

theorem mapIndex_range {c : Config} (h : 1 ≤ c.SMAX) (m : Int) : 0 ≤ c.mapIndex m ∧ c.mapIndex m ≤ 255 := by
  have hlo : 0 ≤ clamp m 0 c.SMAX := le_clamp m (by omega)
  have hhi : clamp m 0 c.SMAX ≤ c.SMAX := clamp_le m
  constructor
  · exact Int.ediv_nonneg (by omega) (by omega)
  · exact Int.lt_add_one_iff.mp (Int.ediv_lt_of_lt_mul (by omega) (by omega))

/-- Settles O35: the index is a floor quotient, and the clamped magnitude lies between 0 and `SMAX`. -/
theorem mapIndexRoundsHalfUp : Obligations.MapIndexRoundsHalfUp := by
  intro c m hpos hmax
  obtain ⟨hnonneg, hle⟩ := mapIndex_range hpos m
  have hclamp : clamp m 0 c.SMAX ≤ c.SMAX := clamp_le m
  refine ⟨hnonneg, hle, ?_, ?_, ?_⟩
  · exact Int.mul_ediv_self_le (by omega)
  · rw [mul_add_one]
    exact Int.lt_mul_ediv_self_add (by omega)
  · rw [clamp] at hclamp
    omega

/-! ### Growth and end values (R223) -/

theorem mapIndex_mono {c : Config} (h : 1 ≤ c.SMAX) {m m' : Int} (hm : m ≤ m') : c.mapIndex m ≤ c.mapIndex m' := by
  have hclamp : clamp m 0 c.SMAX ≤ clamp m' 0 c.SMAX := clamp_mono hm
  exact Int.ediv_le_ediv (by omega) (by omega)

theorem mapIndex_of_ge {c : Config} (h : 1 ≤ c.SMAX) {m : Int} (hm : c.SMAX ≤ m) : c.mapIndex m = 255 := by
  rw [Config.mapIndex, clamp_of_ge (by omega) hm, show 510 * c.SMAX + c.SMAX = c.SMAX + 255 * (2 * c.SMAX) by ring,
    Int.add_mul_ediv_right _ _ (by omega), Int.ediv_eq_zero_of_lt (by omega) (by omega), zero_add]

/-- Half a colour step is `SMAX/510`: below it the index is 0. -/
theorem mapIndex_of_lt {c : Config} (h : 1 ≤ c.SMAX) {m : Int} (hm : 510 * m < c.SMAX) : c.mapIndex m = 0 := by
  have hlo : 0 ≤ clamp m 0 c.SMAX := le_clamp m (by omega)
  have hhi : 510 * clamp m 0 c.SMAX < c.SMAX := by
    unfold clamp
    omega
  exact Int.ediv_eq_zero_of_lt (by omega) (by omega)

/-- Settles O36: the clamp and the floor quotient are monotonic, and the dividend is below the divisor under half a colour step. -/
theorem mapIndexIsMonotonicAndSaturates : Obligations.MapIndexIsMonotonicAndSaturates := by
  intro c hpos _
  exact ⟨fun _ _ => mapIndex_mono hpos, fun _ => mapIndex_of_ge hpos, fun _ hm => mapIndex_of_lt hpos (by omega),
    fun _ => mapIndex_of_lt hpos⟩

/-! ### MAP (R225) -/

theorem exec_map {s : State} (h : s.initDone = true) (m : Int) : exec (.map m) s = .next (mapImmediate m s) := by
  rw [exec_eq, after, State.gated_of_init h]

/-- The eight bits lose nothing of the index, since it lies in [0, 255] (R221). -/
theorem toNat_mapIndexBits {c : Config} (h : 1 ≤ c.SMAX) (m : Int) : ((c.mapIndexBits m).toNat : Int) = c.mapIndex m := by
  obtain ⟨hnonneg, hle⟩ := mapIndex_range h m
  rw [Config.mapIndexBits, BitVec.toNat_ofInt]
  omega

/-- The fields of `MAPRES` do not overlap, so the bit pattern is a sum, and its bits 31:24 are 0 (R225). -/
theorem toNat_mapResult (idx : BitVec 8) (colour : Colour) : (mapResult idx colour).toNat = 65536 * idx.toNat + colour.toNat := by
  have hidx := idx.isLt
  have hcolour := colour.isLt
  rw [mapResult, BitVec.toNat_or, BitVec.toNat_shiftLeft, BitVec.toNat_setWidth, BitVec.toNat_setWidth,
    Nat.mod_eq_of_lt (by omega : idx.toNat < 2 ^ 32), Nat.mod_eq_of_lt (by omega : colour.toNat < 2 ^ 32),
    Nat.mod_eq_of_lt (by rw [Nat.shiftLeft_eq]; omega), ← Nat.shiftLeft_add_eq_or_of_lt hcolour, Nat.shiftLeft_eq, mul_comm]

/-- Settles O37: MAP past the gate writes the index bits of its immediate above the colour at that index. -/
theorem mapWritesIndexAndColour : Obligations.MapWritesIndexAndColour := by
  intro s m hdone hpos _ _ _
  refine ⟨mapResult (s.cfg.mapIndexBits m) (s.cfg.mapColour m), (s.cfg.mapIndexBits m).toFin, ?_, ?_, ?_⟩
  · rw [exec_map hdone, mapImmediate_eq]
  · exact toNat_mapIndexBits hpos m
  · exact toNat_mapResult _ _

end Sys2Proof.Machine
end

section
/-! SUPPORT. The compositor (44_compositor.md): the row COMPOSE writes (R243) and what it reads (R244), the events and the cursor of one
ADVANCE (R247) and of several (R248), and what the spec's sink shows after one (R250 to R252). -/

namespace Sys2Proof.Machine

/-! ### COMPOSE (R243, R244) -/

theorem exec_compose {s : State} (h : s.initDone = true) : exec .compose s = .next (composeRow s) := by
  rw [exec_eq, after, State.gated_of_init h]

theorem read_composeRow_rb (s : State) (x : Nat) :
    (composeRow s).mem.read .rb x = if x < s.cfg.len .rb then some (rowPixel s x) else none :=
  Memory.read_fill_same s.mem .rb _ x _

/-- A column shows the bin that counts its pair of columns from the right. -/
theorem read_composeRow_of_pair {s : State} {x i : Nat} (hx : x < s.cfg.W.toNat) (hi : (s.cfg.W.toNat - 1 - x) / 2 = i) :
    (composeRow s).mem.read .rb x = some (s.cfg.mapColour (s.val .ms (s.cfg.SKIP.toNat + i))) := by
  subst hi
  exact (read_composeRow_rb s x).trans (if_pos hx)

/-- Settles O38: COMPOSE past the gate fills `RB`, and both columns of pair `i` from the right show bin `SKIP + i`. -/
theorem composeWritesEachBinTwice : Obligations.ComposeWritesEachBinTwice := by
  intro s hdone _ _ _
  refine ⟨(composeRow s).mem, exec_compose hdone, fun i hi => ⟨?_, ?_⟩, fun x hx => ?_, Memory.sameExcept_fill _ _ _ _⟩
  · exact read_composeRow_of_pair (by omega) (by omega)
  · exact read_composeRow_of_pair (by omega) (by omega)
  · exact (read_composeRow_rb s x).trans (if_neg (not_lt.mpr hx))

/-- Two states with one configuration give a column one colour when they agree on the bin it shows. -/
theorem rowPixel_congr {s t : State} {x : Nat} (hcfg : s.cfg = t.cfg)
    (hbin : s.mem.read .ms (s.cfg.SKIP.toNat + (s.cfg.len .rb - 1 - x) / 2) =
      t.mem.read .ms (s.cfg.SKIP.toNat + (s.cfg.len .rb - 1 - x) / 2)) : rowPixel s x = rowPixel t x := by
  rw [rowPixel, rowPixel, State.val, State.val, Memory.elem, Memory.elem, hbin, hcfg]

/-- Settles O39: the bin of a column below an even `W` is one of the `W/2` kept. -/
theorem composeReadsOnlyTheKeptBins : Obligations.ComposeReadsOnlyTheKeptBins := by
  intro s t s' t' hcfg hs ht _ heven hagree hexec hexec' x
  obtain rfl : composeRow s = s' := Host.Outcome.next.inj ((exec_compose hs).symm.trans hexec)
  obtain rfl : composeRow t = t' := Host.Outcome.next.inj ((exec_compose ht).symm.trans hexec')
  rw [read_composeRow_rb, read_composeRow_rb, ← hcfg]
  refine ite_congr rfl (fun hx => congrArg some (rowPixel_congr hcfg (hagree _ ?_ ?_))) fun _ => rfl
  · exact Nat.le_add_right _ _
  · simp only [Config.len] at hx ⊢
    omega

/-! ### One ADVANCE (R247) -/

theorem exec_advance {s : State} (h : s.initDone = true) : exec .advance s = .next (advanceScroll s) := by
  rw [exec_eq, after, State.gated_of_init h]

/-- The successor of a row fits the 16 bits of `CURSOR`. -/
theorem toNat_nextRow {s : State} (hpos : 1 ≤ s.cfg.H) (hmax : s.cfg.H ≤ 1024) :
    s.nextRow.toNat = (s.cursor.toNat + 1) % s.cfg.H.toNat := by
  have hlt : (s.cursor.toNat + 1) % s.cfg.H.toNat < s.cfg.H.toNat := Nat.mod_lt _ (by omega)
  rw [State.nextRow, BitVec.toNat_ofNat, Nat.mod_eq_of_lt (by omega)]

theorem length_row (s : State) : s.row.length = s.cfg.W.toNat := by
  simp [State.row, Config.len]

theorem getElem?_row {s : State} {x : Nat} (h : x < s.cfg.W.toNat) : s.row[x]? = some (s.mem.elem .rb x) := by
  simp [State.row, Config.len, h]

/-- Settles O40: ADVANCE past the gate, its cursor and its row element by element. -/
theorem advanceWritesTheRowAtTheCursor : Obligations.AdvanceWritesTheRowAtTheCursor := by
  intro s hdone hpos hmax
  refine ⟨s.nextRow, s.row, exec_advance hdone, ?_, length_row s, fun _ => getElem?_row⟩
  rw [toNat_nextRow hpos hmax, Int.natCast_emod, Int.toNat_of_nonneg (by omega)]
  rfl

/-! ### Several ADVANCEs (R248) -/

/-- The three events that write the row of a state at row `r` of the sink (R247). -/
def State.rowEventsAt (s : State) (r : Nat) : List Event :=
  [.dispCursor 0 r, .dispWrite s.row (2 * s.cfg.W), .dispVScroll r]

theorem advanceScroll_events (s : State) : (advanceScroll s).events = s.events ++ s.rowEventsAt s.cursor.toNat := rfl

theorem execAll_cons_of_exec {s t : State} {i : Instr} (is : List Instr) (h : exec i s = .next t) :
    execAll (i :: is) s = execAll is t := by
  rw [execAll, h]

/-- Settles O41, by induction on the number of ADVANCEs: the first one moves the cursor to the row from which the others count, and it
changes neither `RB` nor the configuration, so the others write the same row. -/
theorem advancesVisitTheRowsInTurn : Obligations.AdvancesVisitTheRowsInTurn := by
  intro s k hdone hpos hmax hcursor
  induction k generalizing s with
  | zero => exact ⟨s, rfl, (Nat.mod_eq_of_lt (by omega)).symm, (BitVec.add_zero _).symm, (List.append_nil _).symm⟩
  | succ k ih =>
    have hrow : s.cursor.toNat % s.cfg.H.toNat = s.cursor.toNat := Nat.mod_eq_of_lt (by omega)
    have hnext : (advanceScroll s).cursor.toNat = (s.cursor.toNat + 1) % s.cfg.H.toNat := toNat_nextRow hpos hmax
    have hbelow : ((advanceScroll s).cursor.toNat : Int) < s.cfg.H := by
      have := Nat.mod_lt (s.cursor.toNat + 1) (show 0 < s.cfg.H.toNat by omega)
      omega
    have hcount (j : Nat) :
        ((advanceScroll s).cursor.toNat + j) % s.cfg.H.toNat = (s.cursor.toNat + (j + 1)) % s.cfg.H.toNat := by
      rw [hnext, Nat.mod_add_mod, Nat.add_assoc, Nat.add_comm 1]
    obtain ⟨t, hall, htcursor, htframes, htevents⟩ := ih (advanceScroll s) hdone hpos hmax hbelow
    refine ⟨t, (execAll_cons_of_exec _ (exec_advance hdone)).trans hall, htcursor.trans (hcount k), ?_, ?_⟩
    · rw [htframes, Nat.add_comm, BitVec.ofNat_add, ← BitVec.add_assoc]
      rfl
    · calc t.events
          = s.events ++ s.rowEventsAt s.cursor.toNat ++
              (List.range k).flatMap fun j => s.rowEventsAt (((advanceScroll s).cursor.toNat + j) % s.cfg.H.toNat) := htevents
        _ = s.events ++ (List.range (k + 1)).flatMap fun j => s.rowEventsAt ((s.cursor.toNat + j) % s.cfg.H.toNat) := by
          simp only [hcount, List.range_succ_eq_map, List.flatMap_cons, List.flatMap_map, Nat.add_zero, hrow, List.append_assoc]

/-! ### The display sink (R250 to R252) -/

/-- The sink after a row was written at row `r` and scrolled to line 0. -/
def Sink.showRow (k : Sink) (r : Nat) (pixels : List Colour) : Sink :=
  { k with fb := k.fb.set r (pixels.map some), vs := r, col := 0, row := r }

/-- The three events of an ADVANCE on a sink of the configured width (R250). -/
theorem Sink.run_rowEventsAt {s : State} {k : Sink} (clear : Colour) {r : Nat} (hwidth : (k.width : Int) = s.cfg.W)
    (hr : r < k.height) : k.run clear (s.rowEventsAt r) = some (k.showRow r s.row) := by
  have htakes : Sink.takesRow { k with col := 0, row := r } s.row (2 * s.cfg.W) :=
    ⟨rfl, by rw [hwidth], by rw [length_row, ← hwidth, Int.toNat_natCast], hr⟩
  simp only [State.rowEventsAt, Sink.run, Sink.apply, if_pos htakes]
  rfl

theorem Sink.line_zero_showRow {k : Sink} {r : Nat} (pixels : List Colour) (hfb : k.fb.length = k.height) (hr : r < k.height) :
    (k.showRow r pixels).line 0 = some (pixels.map some) := by
  simp [Sink.line, Sink.showRow, Nat.mod_eq_of_lt hr, hfb, hr]

/-- Counting on from row `r` by less than the height never meets `r` again: no later line shows the row of line 0. -/
theorem ne_add_mod_of_lt {r v height : Nat} (hr : r < height) (hv : 1 ≤ v) (hlt : v < height) : r ≠ (r + v) % height := by
  intro h
  have hzero : v ≡ 0 [MOD height] := Nat.ModEq.add_left_cancel' r (h.symm.trans (Nat.mod_eq_of_lt hr).symm)
  rw [Nat.ModEq, Nat.mod_eq_of_lt hlt, Nat.zero_mod] at hzero
  omega

/-- Where line 0 showed the row before `r`, a later line shows what the line below it showed. -/
theorem Sink.line_showRow_of_pos {k : Sink} {v : Nat} (pixels : List Colour) (hv : 1 ≤ v) (hlt : v < k.height) :
    (k.showRow ((k.vs + 1) % k.height) pixels).line v = k.line (v + 1) := by
  have hother := ne_add_mod_of_lt (Nat.mod_lt (k.vs + 1) (by omega)) hv hlt
  have hscrolled : ((k.vs + 1) % k.height + v) % k.height = (k.vs + (v + 1)) % k.height := by
    rw [Nat.mod_add_mod, Nat.add_assoc, Nat.add_comm 1]
  calc (k.showRow ((k.vs + 1) % k.height) pixels).line v
      = k.fb[((k.vs + 1) % k.height + v) % k.height]? := List.getElem?_set_ne hother
    _ = k.line (v + 1) := by rw [hscrolled, Sink.line]

/-- Settles O42: the ADVANCE's own events are those of the row at the cursor, and the sink shows that row. -/
theorem newestRowShowsOnScreenLineZero : Obligations.NewestRowShowsOnScreenLineZero := by
  intro s k clear hdone _ _ _ hcursor hwidth hheight hfb
  have hr : s.cursor.toNat < k.height := by omega
  refine ⟨advanceScroll s, k.showRow s.cursor.toNat s.row, exec_advance hdone, ?_, rfl, ?_, fun hprevious v hv hlt => ?_⟩
  · rw [advanceScroll_events, List.drop_left]
    exact Sink.run_rowEventsAt clear hwidth hr
  · rw [Sink.line_zero_showRow s.row hfb hr, State.row, List.map_map]
    rfl
  · rw [← hprevious]
    exact Sink.line_showRow_of_pos s.row hv hlt

end Sys2Proof.Machine
end

section
/-! SUPPORT. The sequencer (45_sequencer.md): SEQ's turn by what it fetches (R271 to R273), its own commands (R270, R282 to R285), and the
ends of INIT (R276 to R280). -/

namespace Sys2Proof.Machine

/-! ### SEQ's turn (R271 to R273) -/

theorem seqTurn_of_command {s : State} {w : Word} {i : Instr} (hrun : s.runState = .running) (hfetch : s.fetch = some w)
    (hdecode : decode w = .command i) : s.seqTurn = exec i s := by
  simp only [State.seqTurn, hrun, State.runCommand, hfetch, hdecode]

theorem seqTurn_past_program {s : State} (hrun : s.runState = .running) (hfetch : s.fetch = none) :
    s.seqTurn = .next (s.raise .pcRange (s.pc.setWidth 32)) := by
  simp only [State.seqTurn, hrun, State.runCommand, hfetch]

theorem seqTurn_of_stopped {s : State} (h : s.runState ≠ .running) : s.seqTurn = .next s := by
  unfold State.seqTurn
  split
  · next hrun => exact absurd hrun h
  · rfl
  · rfl

/-- Settles O7: the turn is SEQ's, and its fetch and decode are those of the state before the choice is used up. -/
theorem stepExecutesTheDecodedCommand : Obligations.StepExecutesTheDecodedCommand :=
  fun s _ _ e hrun hturn hfetch hdecode =>
    (step_of_turn hturn).trans (seqTurn_of_command (s := s.withEnv e) hrun hfetch hdecode)

/-- Settles O8: there is no word at or past the program's length. -/
theorem fetchPastTheProgramRaisesPcRange : Obligations.FetchPastTheProgramRaisesPcRange :=
  fun s e hrun hturn hpc =>
    (step_of_turn hturn).trans (seqTurn_past_program (s := s.withEnv e) hrun (List.getElem?_eq_none hpc))

/-- Before INIT every command but the four of R272 is stopped by the gate. -/
theorem after_of_not_init {i : Instr} (hplain : i ∉ [Instr.nop, .init, .halt]) (hjmp : ∀ target, i ≠ .jmp target) {s : State}
    (h : s.initDone = false) : after i s = s.raise .notInit (encode i) := by
  cases i with
  | nop | init | halt => simp at hplain
  | jmp target => exact absurd rfl (hjmp target)
  | waitdata | ingest | window | rfft | cmag | map | compose | advance => exact State.gated_of_not_init h _ _

/-- Settles O9: an illegal word stops at the decoder; a gated command records its own word, which is the word fetched, since a word
that decodes to a command is the one word of that command. -/
theorem decodeGateRaisesWithTheWord : Obligations.DecodeGateRaisesWithTheWord := by
  intro s w e hrun hturn hfetch
  constructor
  · intro why hdecode
    exact (step_of_turn hturn).trans (seqTurn_of_illegal (s := s.withEnv e) hrun hfetch hdecode)
  · intro i hdecode hplain hjmp hdone
    have hword : encode i = w := (decode_eq_command_iff_encode.mp hdecode).2
    have hgate := after_of_not_init (s := s.withEnv e) hplain hjmp hdone
    rw [stepExecutesTheDecodedCommand s w i e hrun hturn hfetch hdecode, exec_eq]
    exact congrArg Host.Outcome.next (hword ▸ hgate)

/-- Settles O10: every turn answers a next state, whatever is listed behind it. -/
theorem everyStepAnswersNext : Obligations.EveryStepAnswersNext := by
  intro s
  obtain ⟨u, htake⟩ := take_next s.nextTurn.1 s.nextTurn.2
  exact ⟨_, htake s.nextTurn.2.env.turns⟩

/-! ### WAITDATA (R282) -/

theorem waitForData_of_newData {s : State} (h : s.newData ≠ 0#16) : waitForData s = s.nextPc := if_neg h

theorem waitForData_blocked {s : State} (h : s.newData = 0#16) : waitForData s = s := if_pos h

theorem exec_waitdata {s : State} (h : s.initDone = true) : exec .waitdata s = .next (waitForData s) := by
  rw [exec_eq, after, State.gated_of_init h]

/-- Settles O14: the two branches past the gate; a blocked SEQ at the WAITDATA word meets R64's condition for WAITING. -/
theorem waitdataProceedsOrBlocks : Obligations.WaitdataProceedsOrBlocks := by
  intro s hdone
  constructor
  · intro hdata
    rw [exec_waitdata hdone, waitForData_of_newData hdata]
    rfl
  · intro hdata
    refine ⟨by rw [exec_waitdata hdone, waitForData_blocked hdata], fun hrun hword => ?_⟩
    obtain ⟨_, _, _, hwaiting, _⟩ := status_flag_bits s
    rw [hwaiting, waiting_iff]
    exact ⟨hrun, hdone, hword, hdata⟩

/-- A blocked SEQ's turn executes its WAITDATA again, to no effect. -/
theorem seqTurn_of_waiting {s : State} (h : s.waiting = true) : s.seqTurn = .next s := by
  obtain ⟨hrun, hdone, hword, hdata⟩ := (waiting_iff s).mp h
  rw [seqTurn_of_command (i := .waitdata) hrun hword (by decide), exec_waitdata hdone, waitForData_blocked hdata]

theorem seqEnabled_eq_false_iff (s : State) : s.seqEnabled = false ↔ s.runState ≠ .running ∨ s.waiting = true := by
  simp [State.seqEnabled, imp_iff_not_or]

/-- Settles O11: SEQ is stopped, or blocked in WAITDATA. -/
theorem seqWithoutEnabledStepChangesNothing : Obligations.SeqWithoutEnabledStepChangesNothing := by
  intro s e hdisabled hturn
  refine (step_of_turn hturn).trans ?_
  obtain hstopped | hwaiting := (seqEnabled_eq_false_iff s).mp hdisabled
  · exact seqTurn_of_stopped (s := s.withEnv e) hstopped
  · exact seqTurn_of_waiting (s := s.withEnv e) hwaiting

/-! ### NOP, JMP and HALT (R270, R284, R285) -/

/-- Settles O12: NOP's arm is `nextPc`, behind no gate. -/
theorem nopAdvancesPcOnly : Obligations.NopAdvancesPcOnly := fun s => exec_eq .nop s

theorem jumpTo_of_lt {s : State} {target : Nat} (h : target < s.cfg.P) :
    jumpTo target s = { s with pc := BitVec.ofNat 16 target } := if_neg (not_le.mpr h)

theorem jumpTo_of_le {s : State} {target : Nat} (h : s.cfg.P ≤ target) :
    jumpTo target s = s.raise .pcRange (BitVec.ofNat 32 target) := if_pos h

/-- Settles O13: a 16-bit target keeps its value both as the new `pc` and as the information of the fault. -/
theorem jmpSetsPcOrRaisesPcRange : Obligations.JmpSetsPcOrRaisesPcRange := by
  intro s target htarget
  constructor
  · intro hlt
    refine ⟨BitVec.ofNat 16 target, (BitVec.toNat_ofNat _ _).trans (Nat.mod_eq_of_lt htarget), ?_⟩
    rw [exec_eq, after, jumpTo_of_lt hlt]
  · intro hle
    refine ⟨BitVec.ofNat 32 target, (BitVec.toNat_ofNat _ _).trans (Nat.mod_eq_of_lt (by omega)), ?_⟩
    rw [exec_eq, after, jumpTo_of_le hle]
    rfl

/-- The environment's choice does not depend on `RUNSTATE`. -/
theorem nextTurn_with_runState {s u : State} {t : Turn} (h : s.nextTurn = (t, u)) (r : RunState) :
    ({ s with runState := r } : State).nextTurn = (t, { u with runState := r }) := by
  obtain ⟨rfl, rfl⟩ := Prod.mk.inj h
  unfold State.nextTurn
  cases s.env.turns <;> rfl

/-- Settles O15: HALT writes `RUNSTATE`, and a halted SEQ's turn passes. -/
theorem haltStopsSeq : Obligations.HaltStopsSeq :=
  fun s => ⟨exec_eq .halt s, fun e hturn => (step_of_turn (nextTurn_with_runState hturn .halted)).trans
    (seqTurn_of_stopped (s := { s with runState := .halted, env := e }) (by simp))⟩

/-! ### INIT's configuration check (R276) -/

theorem badBit_false_eq_twoPow {k : Nat} (hk : k < 8) : badBit k false = BitVec.twoPow 32 k := by
  have heq : ∀ k < 8, badBit k false = BitVec.twoPow 32 k := by decide
  exact heq k hk

/-- A check writes at most its own bit of the mask. -/
theorem getLsbD_badBit {k : Nat} (hk : k < 8) (ok : Bool) (j : Nat) : (badBit k ok).getLsbD j = (!ok && decide (k = j)) := by
  cases ok with
  | true => simp [badBit]
  | false => simp [badBit_false_eq_twoPow hk, BitVec.getLsbD_twoPow, show k < 32 by omega]

/-- Each bit of INIT's mask is set by its own check alone. -/
theorem bad_bits (c : Config) :
    (c.bad.getLsbD 0 = true ↔ ¬ c.okN = true) ∧ (c.bad.getLsbD 1 = true ↔ ¬ c.okS = true) ∧
      (c.bad.getLsbD 2 = true ↔ ¬ c.okG = true) ∧ (c.bad.getLsbD 3 = true ↔ ¬ c.okW = true) ∧
      (c.bad.getLsbD 4 = true ↔ ¬ c.okH = true) ∧ (c.bad.getLsbD 5 = true ↔ ¬ c.okSKIP = true) ∧
      (c.bad.getLsbD 6 = true ↔ ¬ c.okSMAX = true) ∧ (c.bad.getLsbD 7 = true ↔ ¬ c.okRATE = true) := by
  simp (disch := decide) only [Config.bad, BitVec.getLsbD_or, getLsbD_badBit]
  simp

/-- Bits 31:8 of INIT's mask are 0. -/
theorem toNat_bad_lt (c : Config) : c.bad.toNat < 2 ^ 8 := by
  refine Nat.lt_pow_two_of_testBit _ fun j hj => ?_
  have hne : ∀ k < 8, k ≠ j := by omega
  rw [BitVec.testBit_toNat]
  simp (disch := decide) only [Config.bad, BitVec.getLsbD_or, getLsbD_badBit]
  simp (disch := decide) [hne]

/-- A configuration that passes every check leaves INIT's mask 0. -/
theorem bad_eq_zero_of_legal {c : Config} (h : c.legal = true) : c.bad = 0#32 := by
  obtain ⟨hN, hS, hG, hW, hH, hSKIP, hSMAX, hRATE⟩ := (legal_iff c).mp h
  simp [Config.bad, badBit, hN, hS, hG, hW, hH, hSKIP, hSMAX, hRATE]

/-- The eight checks as R276's ranges. -/
theorem legal_iff_ranges (c : Config) :
    c.legal = true ↔
      c.N ∈ [(32 : Int), 64, 128, 256, 512, 1024] ∧ (1 ≤ c.S ∧ c.S ≤ c.N) ∧ (0 ≤ c.G ∧ c.G ≤ 15) ∧
        (2 ≤ c.W ∧ c.W ≤ 1024 ∧ c.W % 2 = 0) ∧ (1 ≤ c.H ∧ c.H ≤ 1024) ∧ (0 ≤ c.SKIP ∧ 2 * c.SKIP + c.W ≤ c.N) ∧
        (1 ≤ c.SMAX ∧ c.SMAX ≤ 32767) ∧ (1 ≤ c.RATE ∧ c.RATE ≤ 4294967295) := by
  simp only [legal_iff, Config.okN, Config.okS, Config.okG, Config.okW, Config.okH, Config.okSKIP, Config.okSMAX, Config.okRATE,
    decide_eq_true_eq]
  rfl

/-! ### INIT's ends (R276 to R280) -/

theorem initBlock_of_failed_check {s : State} (h : s.cfg.bad ≠ 0#32) (a : InitAnswer) :
    initBlock a s = s.raise .cfgInvalid s.cfg.bad := if_neg h

theorem initBlock_of_legal {s : State} (h : s.cfg.legal = true) (a : InitAnswer) : initBlock a s = bringUp a s :=
  if_pos (bad_eq_zero_of_legal h)

theorem bringUp_of_display_failure {a : InitAnswer} (h : a.dispOk = false) (s : State) :
    bringUp a s = (s.emit [.dispInit s.cfg.W s.cfg.H]).raise .dispInitFail 0 := by
  simp [bringUp, h]

/-- The clears between two groups of events leave the trace of both. -/
theorem State.emit_cleared_emit (s : State) (es fs : List Event) :
    (s.emit es).cleared.emit fs = (s.emit (es ++ fs)).cleared := by
  simp [State.emit, State.cleared]

theorem bringUp_of_source_failure {a : InitAnswer} (hdisp : a.dispOk = true) (hsrc : a.srcOk = false) (s : State) :
    bringUp a s =
      (s.emit [.dispInit s.cfg.W s.cfg.H, .dispClear, .srcConfig s.cfg.RATE s.cfg.S]).cleared.raise .srcInitFail 0 := by
  simp [bringUp, startSource, hdisp, hsrc, State.emit_cleared_emit]

theorem bringUp_of_success {a : InitAnswer} (hdisp : a.dispOk = true) (hsrc : a.srcOk = true) (s : State) :
    bringUp a s =
      (s.emit [.dispInit s.cfg.W s.cfg.H, .dispClear, .srcConfig s.cfg.RATE s.cfg.S, .srcStart]).cleared.started := by
  simp [bringUp, startSource, hdisp, hsrc, State.emit_cleared_emit]

/-- INIT in a legal configuration is the bring-up with this INIT's answers, which are used up. -/
theorem exec_init_of_legal {s : State} (h : s.cfg.legal = true) : exec .init s = .next (bringUp s.answer s.useAnswer) := by
  rw [exec_eq, after, initBlock_of_legal (s := s.useAnswer) h]

/-- Every array but `WT` is cleared by INIT. -/
theorem read_initialMemory_of_ne_wt (c : Config) {a : ArrayId} (h : a ≠ .wt) (i : Nat) :
    (initialMemory c).read a i = if i < c.len a then some 0 else none := by
  rw [read_initialMemory]
  cases a with
  | wt => exact absurd rfl h
  | aw | wf | sc | ms | cb | rb => rfl

theorem read_initialMemory_wt (c : Config) (i : Nat) :
    (initialMemory c).read .wt i = if i < c.N.toNat then some (c.windowCoeff i) else none :=
  read_initialMemory .wt i c

/-- Settles O16: the last of INIT's ends, and the arrays of its tables and clears. -/
theorem initBringsUpTheBlock : Obligations.InitBringsUpTheBlock := by
  intro s hlegal hdisp hsrc
  have hcleared {a : ArrayId} (ha : a ≠ .wt) := read_initialMemory_of_ne_wt s.cfg ha
  refine ⟨initialMemory s.cfg, ?_, read_initialMemory_wt s.cfg, hcleared nofun, hcleared nofun, hcleared nofun,
    hcleared nofun, hcleared nofun, hcleared nofun⟩
  rw [exec_init_of_legal hlegal, bringUp_of_success hdisp hsrc]
  rfl

/-- Settles O17: an illegal configuration has a nonzero mask, and the mask's bits are the checks. -/
theorem initReportsEveryFailedCheck : Obligations.InitReportsEveryFailedCheck := by
  intro s hillegal
  have hbad : s.cfg.bad ≠ 0#32 := fun hzero => hillegal ((legal_iff_ranges s.cfg).mp (legal_of_bad_eq_zero hzero))
  obtain ⟨hN, hS, hG, hW, hH, hSKIP, hSMAX, hRATE⟩ := bad_bits s.cfg
  refine ⟨s.cfg.bad, ?_, hN.trans (not_congr decide_eq_true_iff), hS.trans (not_congr decide_eq_true_iff),
    hG.trans (not_congr decide_eq_true_iff), hW.trans (not_congr decide_eq_true_iff), hH.trans (not_congr decide_eq_true_iff),
    ?_, hSMAX.trans (not_congr decide_eq_true_iff), hRATE.trans (not_congr decide_eq_true_iff), toNat_bad_lt s.cfg⟩
  · rw [exec_eq, after, initBlock_of_failed_check (s := s.useAnswer) hbad]
    rfl
  · rw [hSKIP, Config.okSKIP, decide_eq_true_iff, not_and_or, not_le, not_le]

/-- Settles O18: a failed call ends INIT after the writes of the parts before it. -/
theorem initKeepsWritesMadeBeforeItsFault : Obligations.InitKeepsWritesMadeBeforeItsFault := by
  intro s hlegal
  constructor
  · intro hdisp
    rw [exec_init_of_legal hlegal, bringUp_of_display_failure hdisp]
    rfl
  · intro hdisp hsrc
    refine ⟨initialMemory s.cfg, ?_, read_initialMemory_wt s.cfg, fun a ha => read_initialMemory_of_ne_wt s.cfg ha⟩
    rw [exec_init_of_legal hlegal, bringUp_of_source_failure hdisp hsrc]
    rfl

end Sys2Proof.Machine
end

section
/-! SUPPORT. Exceptions (60_exceptions.md): how a step comes to FAULTED (R301, R304), which commands cannot fault past INIT (R302), and
what a faulted block does with its turns (R305, R306). -/


namespace Sys2Proof.Machine

/-! ### Where a fault leaves the block (R304) -/

/-- `t` is a fault taken from `s` (R304): raised at the `pc` of `s`, and with nothing of the block written before it, but for the two
causes INIT raises after its first writes. -/
def State.FaultsTo (s t : State) : Prop :=
  ∃ (u : State) (c : Cause) (info : Word), t = u.raise c info ∧ u.pc = s.pc ∧
    (c = .dispInitFail ∨ c = .srcInitFail ∨ ∃ e, u = s.withEnv e)

/-- A fault raised with nothing but the environment's choices used up. -/
theorem State.faultsTo_raise_withEnv (s : State) (e : Env) (c : Cause) (info : Word) :
    s.FaultsTo ((s.withEnv e).raise c info) :=
  ⟨_, c, info, rfl, rfl, .inr (.inr ⟨e, rfl⟩)⟩

theorem State.faultsTo_raise (s : State) (c : Cause) (info : Word) : s.FaultsTo (s.raise c info) :=
  s.faultsTo_raise_withEnv s.env c info

/-- The environment's choice before a fault is no write of the block. -/
theorem State.FaultsTo.of_withEnv {s t : State} {e : Env} (h : (s.withEnv e).FaultsTo t) : s.FaultsTo t := by
  obtain ⟨u, c, info, rfl, hpc, hcause⟩ := h
  exact ⟨u, c, info, rfl, hpc, hcause⟩

theorem completed_runState_ne_faulted (i : Instr) {s : State} (hs : s.runState ≠ .faulted) :
    (completed i s).runState ≠ .faulted := by
  by_cases hi : i = .halt
  · subst hi
    exact nofun
  · rwa [completed_runState hi]

/-- INIT's three failing ends (R276, R277, R279); its fourth end is no fault. -/
theorem initBlock_faultsTo {a : InitAnswer} {s : State} (hs : s.runState ≠ .faulted)
    (h : (initBlock a s).runState = .faulted) : s.FaultsTo (initBlock a s) := by
  obtain ⟨_, heq⟩ | ⟨_, heq | heq | heq⟩ := initBlock_cases a s <;> rw [heq] at h ⊢
  · exact s.faultsTo_raise _ _
  · exact ⟨_, _, _, rfl, rfl, .inl rfl⟩
  · exact ⟨_, _, _, rfl, rfl, .inr (.inl rfl)⟩
  · exact absurd h hs

theorem after_faultsTo {i : Instr} {s : State} (hs : s.runState ≠ .faulted) (h : (after i s).runState = .faulted) :
    s.FaultsTo (after i s) := by
  by_cases hi : i = .init
  · subst hi
    exact (initBlock_faultsTo (s := s.useAnswer) hs h).of_withEnv
  · obtain ⟨c, info, heq⟩ | heq | heq := after_cases hi s <;> rw [heq] at h ⊢
    · exact s.faultsTo_raise c info
    · exact absurd h hs
    · exact absurd h (completed_runState_ne_faulted i hs)

theorem offer_faultsTo {block : List Sample} {s : State} (hs : s.runState ≠ .faulted)
    (h : (offer block s).runState = .faulted) : s.FaultsTo (offer block s) := by
  obtain heq | ⟨_, _, heq | ⟨f, heq⟩⟩ := offer_cases block s <;> rw [heq] at h ⊢
  · exact absurd h hs
  · exact s.faultsTo_raise _ _
  · exact absurd h hs

/-- Every way into FAULTED (R301): a step gets there by a fault alone. -/
theorem step_faultsTo {s s' : State} (hstep : step s = .next s') (hs : s.runState ≠ .faulted)
    (h : s'.runState = .faulted) : s.FaultsTo s' := by
  obtain ⟨u, ⟨e, rfl⟩, hturn⟩ := step_cases hstep
  obtain ⟨_, rfl⟩ | ⟨_, _, rfl⟩ | ⟨_, w, why, _, _, rfl⟩ | ⟨_, w, i, _, _, rfl⟩ | ⟨block, rfl⟩ | ⟨_, rfl⟩ := hturn
  · exact absurd h hs
  · exact s.faultsTo_raise_withEnv e _ _
  · exact s.faultsTo_raise_withEnv e _ _
  · exact (after_faultsTo (s := s.withEnv e) hs h).of_withEnv
  · exact (offer_faultsTo (s := s.withEnv e) hs h).of_withEnv
  · exact absurd h nofun

/-- Settles O43: the step is a fault, whose cause is one of R301's; where nothing was written before it, the faulted state is the state
before but for the record, `RUNSTATE` and the environment. -/
theorem faultsArePrecise : Obligations.FaultsArePrecise := by
  intro s s' hstep hs hfaulted
  obtain ⟨u, c, info, rfl, hpc, hcause⟩ := step_faultsTo hstep hs hfaulted
  obtain ⟨hne, hle⟩ := c.code_range
  refine ⟨hpc, hpc, ?_, hle, fun hdisp hsrc => ?_⟩
  · exact Nat.one_le_iff_ne_zero.mpr (BitVec.toNat_ne_iff_ne.mpr hne)
  · obtain rfl | rfl | ⟨e, rfl⟩ := hcause
    · exact absurd rfl hdisp
    · exact absurd rfl hsrc
    · rfl

/-! ### The data commands (R302) -/

/-- Past INIT the gate is open, and a data command blocks or completes. -/
theorem after_data_command {i : Instr}
    (hi : i ∈ [Instr.waitdata, .ingest, .window, .rfft, .cmag, .compose, .advance] ∨ ∃ m, i = .map m) {s : State}
    (hdone : s.initDone = true) : after i s = s ∨ after i s = completed i s := by
  cases i with
  | nop | init | halt | jmp => simp at hi
  | waitdata =>
    rw [after, State.gated_of_init hdone]
    exact waitForData_cases s
  | ingest | window | rfft | cmag | map | compose | advance => exact .inr (State.gated_of_init hdone _ _)

/-- Settles O45: neither a blocked nor a completed data command, HALT not among them, writes `RUNSTATE` or the record. -/
theorem dataCommandsNeverFault : Obligations.DataCommandsNeverFault := by
  intro s t i hdone hi hexec
  obtain rfl : after i s = t := by simpa [exec_eq] using hexec
  have hhalt : i ≠ .halt := by
    rintro rfl
    simp at hi
  obtain h | h := after_data_command hi hdone <;> rw [h]
  · exact ⟨rfl, rfl⟩
  · exact ⟨completed_runState hhalt s, completed_fault i s⟩

/-! ### A faulted block (R305, R306) -/

/-- Settles O44: SEQ is stopped, and no landing is enabled. -/
theorem faultedBlockIsFrozen : Obligations.FaultedBlockIsFrozen := by
  intro s t e hfaulted hreset hturn
  refine (step_of_turn hturn).trans ?_
  cases t with
  | seq => exact seqTurn_of_stopped (s := s.withEnv e) (by simp [hfaulted])
  | land block => exact congrArg Host.Outcome.next (offer_of_disabled (s := s.withEnv e) (.inr hfaulted) block)
  | reset => exact absurd rfl hreset

end Sys2Proof.Machine
end
